-- ==== Sys2Proof/Word.lean ====
section
/-! DEFINITION. The word the block decodes (R1, R11, R13): 16 bits, unsigned, bit 15 the most significant.
A byte is only what the host forms a word from (R43); the block itself sees no byte. -/

namespace Sys2Proof

/-- One 16-bit program-memory word, and every field value a response carries (each zero-extended to 16 bits,
R120). -/
abbrev Word := BitVec 16

/-- One byte of the host's program memory (R43). -/
abbrev Byte := BitVec 8

end Sys2Proof
end

