-- ==== Sys2Proof/Config.lean ====
section
/-! DEFINITION. The parameters R10 leaves OPEN and the one choice the spec leaves to an implementation, as
constants without a body: nothing can evaluate them, so a claim holds whatever they are.
`TABLE` (R10) is not here: it is LOAD's operand, and every statement about LOAD or DECODE is made for every table. -/

namespace Sys2Proof.Config

/-- The two values of `HOST_WORD_BYTE_ORDER` (R43). -/
inductive ByteOrder where
  | little   -- word = byte[a] + 256 * byte[a+1]
  | big      -- word = 256 * byte[a] + byte[a+1]
deriving DecidableEq, Repr, Inhabited

/-- How many entries the table store holds beyond the 31 that REF31 needs: any number (notes/assumptions/1.md). -/
opaque spareEntries : Nat

/-- `MAX_ENTRIES` (R10): open, at least 31. -/
def maxEntries : Nat := spareEntries + 31

/-- `HOST_WORD_BYTE_ORDER` (R10, R43): open, on the host's side only. No rule of the block reads it. -/
opaque hostWordByteOrder : ByteOrder

/-- FREE VALUE (notes/assumptions/2.md): whether the RESET that waits behind an unanswered DECODE takes effect before that
DECODE is answered (R210, R214, R215), for the choice numbered `k` of a run. -/
opaque resetOvertakes : Nat → Bool

end Sys2Proof.Config
end

