-- ==== Sys2Proof/Syntax.lean ====
section
/-! DEFINITION. What the block is given, as terms: the instructions of REF31 (one constructor per row of
spec/opcode_table.json, R142 to R172), the table description LOAD takes (R90) and the entry the table store
holds (R21). -/

namespace Sys2Proof

/-- An instruction of REF31: a table entry together with its operand fields (R9). The widths of `d`, `a`, `f` and of
MOVFF's unnamed field are those of the formats FDA, FA and F12 (R64, R65, R66), so that an operand outside its field
cannot be written down. What a PIC18 core would do with the instruction is out of scope (R8). -/
inductive Instr where
  | addwf (d a : BitVec 1) (f : BitVec 8)   -- R142, row 0, 001001daffffffff
  | addwfc (d a : BitVec 1) (f : BitVec 8)   -- R143, row 1, 001000daffffffff
  | andwf (d a : BitVec 1) (f : BitVec 8)   -- R144, row 2, 000101daffffffff
  | clrf (a : BitVec 1) (f : BitVec 8)   -- R145, row 3, 0110101affffffff
  | comf (d a : BitVec 1) (f : BitVec 8)   -- R146, row 4, 000111daffffffff
  | cpfseq (a : BitVec 1) (f : BitVec 8)   -- R147, row 5, 0110001affffffff
  | cpfsgt (a : BitVec 1) (f : BitVec 8)   -- R148, row 6, 0110010affffffff
  | cpfslt (a : BitVec 1) (f : BitVec 8)   -- R149, row 7, 0110000affffffff
  | decf (d a : BitVec 1) (f : BitVec 8)   -- R150, row 8, 000001daffffffff
  | decfsz (d a : BitVec 1) (f : BitVec 8)   -- R151, row 9, 001011daffffffff
  | dcfsnz (d a : BitVec 1) (f : BitVec 8)   -- R152, row 10, 010011daffffffff
  | incf (d a : BitVec 1) (f : BitVec 8)   -- R153, row 11, 001010daffffffff
  | incfsz (d a : BitVec 1) (f : BitVec 8)   -- R154, row 12, 001111daffffffff
  | infsnz (d a : BitVec 1) (f : BitVec 8)   -- R155, row 13, 010010daffffffff
  | iorwf (d a : BitVec 1) (f : BitVec 8)   -- R156, row 14, 000100daffffffff
  | movf (d a : BitVec 1) (f : BitVec 8)   -- R157, row 15, 010100daffffffff
  | movff (src : BitVec 12)   -- R158, row 16, 1100ssssssssssss
  | movwf (a : BitVec 1) (f : BitVec 8)   -- R159, row 17, 0110111affffffff
  | mulwf (a : BitVec 1) (f : BitVec 8)   -- R160, row 18, 0000001affffffff
  | negf (a : BitVec 1) (f : BitVec 8)   -- R161, row 19, 0110110affffffff
  | rlcf (d a : BitVec 1) (f : BitVec 8)   -- R162, row 20, 001101daffffffff
  | rlncf (d a : BitVec 1) (f : BitVec 8)   -- R163, row 21, 010001daffffffff
  | rrcf (d a : BitVec 1) (f : BitVec 8)   -- R164, row 22, 001100daffffffff
  | rrncf (d a : BitVec 1) (f : BitVec 8)   -- R165, row 23, 010000daffffffff
  | setf (a : BitVec 1) (f : BitVec 8)   -- R166, row 24, 0110100affffffff
  | subfwb (d a : BitVec 1) (f : BitVec 8)   -- R167, row 25, 010101daffffffff
  | subwf (d a : BitVec 1) (f : BitVec 8)   -- R168, row 26, 010111daffffffff
  | subwfb (d a : BitVec 1) (f : BitVec 8)   -- R169, row 27, 010110daffffffff
  | swapf (d a : BitVec 1) (f : BitVec 8)   -- R170, row 28, 001110daffffffff
  | tstfsz (a : BitVec 1) (f : BitVec 8)   -- R171, row 29, 0110011affffffff
  | xorwf (d a : BitVec 1) (f : BitVec 8)   -- R172, row 30, 000110daffffffff
deriving DecidableEq, Repr

/-- One `(name, width)` pair of a table description (R90): any string and any integer, checked by LOAD. -/
structure FieldDesc where
  name  : String
  width : Int
deriving DecidableEq, Repr

/-- One triple `(mnemonic, prefix, fields)` of a table description (R90). `bits` is the prefix, a string of characters
meant to be `0` and `1`. -/
structure EntryDesc where
  mnemonic : String
  bits     : String
  fields   : List FieldDesc
deriving DecidableEq, Repr

/-- One field of a stored entry (R21). A stored name has length 0 or 1: `none` is the empty name `""` (unnamed),
`some c` the one character `c`. -/
structure Field where
  name  : Option Char
  width : Nat
deriving DecidableEq, Repr

/-- One InstructionEncoding of the table store (R21): the mnemonic, the length and the value of the prefix, and the
ordered fields. -/
structure Entry where
  mnemonic : String
  plen     : Nat
  pval     : Nat
  fields   : List Field
deriving DecidableEq, Repr

end Sys2Proof
end

