-- ==== Sys2Proof/Decode.lean ====
section
/-! DEFINITION. From bits to an instruction of REF31 and back, from the encodings of R142 to R172.
`decodeWord` is total: a word outside the 31 ranges is rejected as `unknownOpcode` (R69, R173). It is the model's reading
of REF31's words as instructions; what the block ANSWERS is computed from the loaded table alone
(Machine/Matching.lean), and that the two agree under REF31 is one of the model's statements. -/

namespace Sys2Proof

/-- `w[hi:lo]` (R12): the unsigned value of bits `hi` down to `lo`. -/
def slice (w : Word) (hi lo : Nat) : Nat := w.toNat / 2 ^ lo % 2 ^ (hi - lo + 1)

/-- Why bytes or a word are no instruction of REF31. -/
inductive Reject where
  | unknownOpcode   -- no prefix of REF31 matches the word (R69, R173)
  | truncated       -- fewer than two bytes are left to form a word from (R45: only whole words exist)
deriving DecidableEq, Repr

/-- One row of the encoding table: a prefix and how the bits after it are read. -/
structure Row where
  plen  : Nat
  pval  : Nat
  build : Word → Instr

/-- Format FDA (R64): `d = w[9:9]`, `a = w[8:8]`, `f = w[7:0]`. -/
def readFda (mk : BitVec 1 → BitVec 1 → BitVec 8 → Instr) (w : Word) : Instr :=
  mk (BitVec.ofNat 1 (slice w 9 9)) (BitVec.ofNat 1 (slice w 8 8)) (BitVec.ofNat 8 (slice w 7 0))

/-- Format FA (R65): `a = w[8:8]`, `f = w[7:0]`. -/
def readFa (mk : BitVec 1 → BitVec 8 → Instr) (w : Word) : Instr :=
  mk (BitVec.ofNat 1 (slice w 8 8)) (BitVec.ofNat 8 (slice w 7 0))

/-- Format F12 (R66): the unnamed field is `w[11:0]`. -/
def readF12 (mk : BitVec 12 → Instr) (w : Word) : Instr :=
  mk (BitVec.ofNat 12 (slice w 11 0))

/-- The prefixes of REF31, rows 0 to 15 (R142 to R157). -/
def rowsLow : List Row :=
  [ ⟨6, 0b001001, readFda .addwf⟩,
    ⟨6, 0b001000, readFda .addwfc⟩,
    ⟨6, 0b000101, readFda .andwf⟩,
    ⟨7, 0b0110101, readFa .clrf⟩,
    ⟨6, 0b000111, readFda .comf⟩,
    ⟨7, 0b0110001, readFa .cpfseq⟩,
    ⟨7, 0b0110010, readFa .cpfsgt⟩,
    ⟨7, 0b0110000, readFa .cpfslt⟩,
    ⟨6, 0b000001, readFda .decf⟩,
    ⟨6, 0b001011, readFda .decfsz⟩,
    ⟨6, 0b010011, readFda .dcfsnz⟩,
    ⟨6, 0b001010, readFda .incf⟩,
    ⟨6, 0b001111, readFda .incfsz⟩,
    ⟨6, 0b010010, readFda .infsnz⟩,
    ⟨6, 0b000100, readFda .iorwf⟩,
    ⟨6, 0b010100, readFda .movf⟩ ]

/-- The prefixes of REF31, rows 16 to 30 (R158 to R172). -/
def rowsHigh : List Row :=
  [ ⟨4, 0b1100, readF12 .movff⟩,
    ⟨7, 0b0110111, readFa .movwf⟩,
    ⟨7, 0b0000001, readFa .mulwf⟩,
    ⟨7, 0b0110110, readFa .negf⟩,
    ⟨6, 0b001101, readFda .rlcf⟩,
    ⟨6, 0b010001, readFda .rlncf⟩,
    ⟨6, 0b001100, readFda .rrcf⟩,
    ⟨6, 0b010000, readFda .rrncf⟩,
    ⟨7, 0b0110100, readFa .setf⟩,
    ⟨6, 0b010101, readFda .subfwb⟩,
    ⟨6, 0b010111, readFda .subwf⟩,
    ⟨6, 0b010110, readFda .subwfb⟩,
    ⟨6, 0b001110, readFda .swapf⟩,
    ⟨7, 0b0110011, readFa .tstfsz⟩,
    ⟨6, 0b000110, readFda .xorwf⟩ ]

/-- All 31 prefixes of REF31, in the order of R140. -/
def rows : List Row := rowsLow ++ rowsHigh

/-- The instruction of the first row whose prefix is the word's leading bits; REF31 is prefix-free (R68), so at most
one row has it. -/
def firstRow (w : Word) : List Row → Option Instr
  | [] => none
  | r :: rest => if slice w 15 (16 - r.plen) = r.pval then some (r.build w) else firstRow w rest

/-- The REF31 instruction a word encodes (R141), or `unknownOpcode` (R173). -/
def decodeWord (w : Word) : Except Reject Instr :=
  match firstRow w rows with
  | some i => .ok i
  | none => .error .unknownOpcode

/-- The word the host forms from the bytes at an even address and at the next one (R43). -/
def hostWord (order : Config.ByteOrder) (first second : Byte) : Word :=
  match order with
  | .little => BitVec.ofNat 16 (first.toNat + 256 * second.toNat)
  | .big => BitVec.ofNat 16 (256 * first.toNat + second.toNat)

/-- The instruction at the head of a byte stream and the bytes after it. Every instruction is two bytes long (R60), the
words after a MOVFF included (R71). -/
def decodeBytes (order : Config.ByteOrder) : List Byte → Except Reject (Instr × List Byte)
  | first :: second :: rest =>
    match decodeWord (hostWord order first second) with
    | .ok i => .ok (i, rest)
    | .error r => .error r
  | _ => .error .truncated

/-- The instruction decoded from a word of `nbits` bits whose bits above them are 0. The block's input is the word
itself (R42), so no byte order enters. -/
def decodeTableWord (nbits w : Nat) : Option Instr :=
  match decodeWord (BitVec.ofNat 16 (w % 2 ^ nbits)) with
  | .ok i => some i
  | .error _ => none

/-! The encoder: a prefix followed by its fields (R60), from the bit patterns of R142 to R172. -/

/-- `p ++ d ++ a ++ f` with a 6-bit prefix `p` (R64). -/
def packFda (p : Nat) (d a : BitVec 1) (f : BitVec 8) : Word :=
  BitVec.ofNat 16 (((p * 2 + d.toNat) * 2 + a.toNat) * 256 + f.toNat)

/-- `p ++ a ++ f` with a 7-bit prefix `p` (R65). -/
def packFa (p : Nat) (a : BitVec 1) (f : BitVec 8) : Word :=
  BitVec.ofNat 16 ((p * 2 + a.toNat) * 256 + f.toNat)

/-- `p ++ s` with a 4-bit prefix `p` (R66). -/
def packF12 (p : Nat) (s : BitVec 12) : Word :=
  BitVec.ofNat 16 (p * 4096 + s.toNat)

/-- The word of an instruction. Every term of `Instr` is well-formed, so every one has a word. -/
def encode : Instr → Word
  | .addwf d a f => packFda 0b001001 d a f
  | .addwfc d a f => packFda 0b001000 d a f
  | .andwf d a f => packFda 0b000101 d a f
  | .clrf a f => packFa 0b0110101 a f
  | .comf d a f => packFda 0b000111 d a f
  | .cpfseq a f => packFa 0b0110001 a f
  | .cpfsgt a f => packFa 0b0110010 a f
  | .cpfslt a f => packFa 0b0110000 a f
  | .decf d a f => packFda 0b000001 d a f
  | .decfsz d a f => packFda 0b001011 d a f
  | .dcfsnz d a f => packFda 0b010011 d a f
  | .incf d a f => packFda 0b001010 d a f
  | .incfsz d a f => packFda 0b001111 d a f
  | .infsnz d a f => packFda 0b010010 d a f
  | .iorwf d a f => packFda 0b000100 d a f
  | .movf d a f => packFda 0b010100 d a f
  | .movff src => packF12 0b1100 src
  | .movwf a f => packFa 0b0110111 a f
  | .mulwf a f => packFa 0b0000001 a f
  | .negf a f => packFa 0b0110110 a f
  | .rlcf d a f => packFda 0b001101 d a f
  | .rlncf d a f => packFda 0b010001 d a f
  | .rrcf d a f => packFda 0b001100 d a f
  | .rrncf d a f => packFda 0b010000 d a f
  | .setf a f => packFa 0b0110100 a f
  | .subfwb d a f => packFda 0b010101 d a f
  | .subwf d a f => packFda 0b010111 d a f
  | .subwfb d a f => packFda 0b010110 d a f
  | .swapf d a f => packFda 0b001110 d a f
  | .tstfsz a f => packFa 0b0110011 a f
  | .xorwf d a f => packFda 0b000110 d a f

/-- The row of REF31 an instruction stands for: the entry index of R140. -/
def Instr.index : Instr → Nat
  | .addwf _ _ _ => 0
  | .addwfc _ _ _ => 1
  | .andwf _ _ _ => 2
  | .clrf _ _ => 3
  | .comf _ _ _ => 4
  | .cpfseq _ _ => 5
  | .cpfsgt _ _ => 6
  | .cpfslt _ _ => 7
  | .decf _ _ _ => 8
  | .decfsz _ _ _ => 9
  | .dcfsnz _ _ _ => 10
  | .incf _ _ _ => 11
  | .incfsz _ _ _ => 12
  | .infsnz _ _ _ => 13
  | .iorwf _ _ _ => 14
  | .movf _ _ _ => 15
  | .movff _ => 16
  | .movwf _ _ => 17
  | .mulwf _ _ => 18
  | .negf _ _ => 19
  | .rlcf _ _ _ => 20
  | .rlncf _ _ _ => 21
  | .rrcf _ _ _ => 22
  | .rrncf _ _ _ => 23
  | .setf _ _ => 24
  | .subfwb _ _ _ => 25
  | .subwf _ _ _ => 26
  | .subwfb _ _ _ => 27
  | .swapf _ _ _ => 28
  | .tstfsz _ _ => 29
  | .xorwf _ _ _ => 30

end Sys2Proof
end

