-- ==== Sys2Proof/WellFormed.lean ====
section
/-! DEFINITION. What the table store may hold: the checks a stored entry and a stored table meet (R10, R21, R93).
An instruction needs no check of its own: its operand widths are in its type (Syntax.lean). -/

namespace Sys2Proof

/-- The sum of an entry's field widths. -/
def Entry.widthSum (e : Entry) : Nat := (e.fields.map (·.width)).sum

/-- A stored entry (R21): the prefix has 1 to 16 bits, its value fits them, every field has 1 to 15 bits, and prefix
and fields fill the 16-bit word. -/
def Entry.wf (e : Entry) : Bool :=
  decide (1 ≤ e.plen) && decide (e.plen ≤ 16) && decide (e.pval < 2 ^ e.plen)
    && e.fields.all (fun f => decide (1 ≤ f.width) && decide (f.width ≤ 15))
    && decide (e.plen + e.widthSum = 16)

/-- A stored table: every entry is well-formed, and mnemonics are non-empty and unique (R21, R93). -/
def Table.wf (t : List Entry) : Bool :=
  t.all Entry.wf && t.all (fun e => decide (e.mnemonic ≠ "")) && decide ((t.map (·.mnemonic)).Nodup)

end Sys2Proof
end

