-- ==== Sys2Proof/Machine/State.lean ====
section
/-! DEFINITION. The state of the block (R20), the requests it is given and the responses it gives (D2, R90, R110,
R120), and the state after RESET (R33). -/

namespace Sys2Proof.Machine

/-- `STATUS` (R23). The register has two bits and its value 3 never occurs: there is no constructor for it. -/
inductive Status where
  | unloaded    -- 0: no table, decode refused
  | loaded      -- 1: a valid table is held, decode accepted
  | malformed   -- 2: a LOAD was rejected, decode refused until RESET
deriving DecidableEq, Repr

/-- `ERR_CODE` (R24, R181). The register has four bits and its values 9 to 15 never occur. -/
inductive ErrCode where
  | noError         -- 0 NONE
  | widthSum        -- 1 WIDTH_SUM
  | prefixLength    -- 2 PREFIX_LENGTH
  | fieldWidth      -- 3 FIELD_WIDTH
  | dupMnemonic     -- 4 DUP_MNEMONIC
  | tableTooLarge   -- 5 TABLE_TOO_LARGE
  | fieldName       -- 6 FIELD_NAME
  | emptyMnemonic   -- 7 EMPTY_MNEMONIC
  | prefixChar      -- 8 PREFIX_CHAR
deriving DecidableEq, Repr

/-- The name a host reads one of the four registers by (R23 to R26). -/
inductive HostReg where
  | status
  | errCode
  | errIndex
  | dupField
deriving DecidableEq, Repr

/-- The map of a DECODED response (R114): distinct names with their values, in order of first occurrence (D25). -/
abbrev FieldMap := List (Option Char × Word)

/-- What a DECODE response says beside its tag (R120, R182). -/
inductive DecodeOutcome where
  | decoded (index : Nat) (mnemonic : String) (raw : List Word) (map : FieldMap)
  | unknownOpcode
  | ambiguousEncoding (tied : List Nat)
deriving DecidableEq, Repr

/-- The three request kinds (D2): LOAD (R90), DECODE with its sequence tag and word (R110), RESET (R210). -/
inductive Request where
  | load (description : List EntryDesc)
  | decode (seq : Nat) (w : Word)
  | reset
deriving DecidableEq, Repr

/-- The response kinds (R90, R120). RESET has no response beyond its completion (R210). -/
inductive Response where
  | loadOK
  | loadFailed (code : ErrCode) (index : Nat)
  | decode (seq : Nat) (outcome : DecodeOutcome)
deriving DecidableEq, Repr

/-- Why a step stops with a fault: never. No operation of the block raises an exception, traps, halts or aborts
(R185), so the type has no constructor. -/
inductive Fault
deriving DecidableEq, Repr

/-- Why a step has no meaning. -/
inductive Refusal where
  /-- Raised by an arm of `exec` whose instruction has no meaning yet. Safe: the run stops. No arm raises it. -/
  | notModelled (mnemonic : String)
deriving DecidableEq, Repr

/-- The block and its port. The first six fields are the complete state of the block (R20). The last three are the model's
own (notes/assumptions/3.md and 2.md): what stands at the port, what has left it, and the counter of free choices. -/
structure State where
  /-- `STATUS` (R23). -/
  status    : Status
  /-- `n`, the number of loaded entries (R20). -/
  n         : Nat
  /-- `T`, the table store (R21). Only `T[0] .. T[n-1]` are ever read (R33). -/
  table     : List Entry
  /-- `ERR_CODE` (R24). -/
  errCode   : ErrCode
  /-- `ERR_INDEX` (R25), an entry index. -/
  errIndex  : Nat
  /-- `DUP_FIELD` (R26), one bit. -/
  dupField  : Bool
  /-- The requests the host has issued and the block has not served, oldest first. -/
  requests  : List Request
  /-- The responses that have left the block, oldest first (R48). No operation of the block reads them (R20). -/
  responses : List Response
  /-- How many free choices of `Config.resetOvertakes` have been taken. -/
  choices   : Nat
deriving DecidableEq, Repr

/-- The state after RESET and at power-on (R33, R211), with nothing at the port. -/
def State.reset : State :=
  { status := .unloaded, n := 0, table := [], errCode := .noError, errIndex := 0, dupField := false,
    requests := [], responses := [], choices := 0 }

end Sys2Proof.Machine
end

