-- ==== Sys2Proof/Machine/Operands.lean ====
section
/-! DEFINITION. Operand fields: where an entry's fields lie in a word and what values they have (R61, R62, R113, R114), and
the words of the three formats of REF31 (R64, R65, R66). -/

namespace Sys2Proof.Machine

/-- Field extraction (R113): the cursor `c` is a string position counted from the left, and each field consumes the next
`width` bits. Each value is unsigned, zero-extended to 16 bits (R13, R120). -/
def extractFrom (w : Word) : Nat → List Field → List Word
  | _, [] => []
  | c, f :: rest => BitVec.ofNat 16 (slice w (15 - c) (16 - c - f.width)) :: extractFrom w (c + f.width) rest

/-- `raw` (R113): the field values in field order, the cursor starting right after the prefix. -/
def rawFields (e : Entry) (w : Word) : List Word := extractFrom w e.plen e.fields

/-- `map[name] <- v` (R114): a later field of the same name overwrites the value and keeps the key's place (D25). -/
def assign (key : Option Char) (v : Word) : FieldMap → FieldMap
  | [] => [(key, v)]
  | (k, u) :: rest => if k = key then (k, v) :: rest else (k, u) :: assign key v rest

/-- The field map built by the assignments of R114, in field order. -/
def buildMap : List Field → List Word → FieldMap → FieldMap
  | f :: fields, v :: raw, m => buildMap fields raw (assign f.name v m)
  | _, _, m => m

/-- The field map of entry `e` for word `w` (R114). -/
def fieldMap (e : Entry) (w : Word) : FieldMap := buildMap e.fields (rawFields e w) []

/-- `s_j` (R61): the string position where field number `j` (counted from 0) of entry `e` starts. -/
def fieldStart (e : Entry) (j : Nat) : Nat := e.plen + ((e.fields.take j).map (·.width)).sum

/-- The words of format FDA (R64) with a given `match` value: `d` in bit 9, `a` in bit 8, `f` in bits 7..0. -/
def wordFda (match0 : Nat) (d a : BitVec 1) (f : BitVec 8) : Word :=
  BitVec.ofNat 16 (match0 + d.toNat * 2 ^ 9 + a.toNat * 2 ^ 8 + f.toNat)

/-- The words of format FA (R65) with a given `match` value: `a` in bit 8, `f` in bits 7..0. -/
def wordFa (match0 : Nat) (a : BitVec 1) (f : BitVec 8) : Word :=
  BitVec.ofNat 16 (match0 + a.toNat * 2 ^ 8 + f.toNat)

/-- The words of format F12 (R66) with a given `match` value: the unnamed field in bits 11..0. -/
def wordF12 (match0 : Nat) (src : BitVec 12) : Word :=
  BitVec.ofNat 16 (match0 + src.toNat)

end Sys2Proof.Machine
end

