-- ==== Sys2Proof/Machine/Matching.lean ====
section
/-! DEFINITION. DECODE's answer as a function of the table and the word (R111 to R119): prefix match, longest-prefix
disambiguation, and the three outcomes. -/

namespace Sys2Proof.Machine

/-- The match predicate (R111): the word's leading `plen` bits equal the entry's prefix. -/
def matchesWord (e : Entry) (w : Word) : Bool := slice w 15 (16 - e.plen) == e.pval

/-- `mask_e` (R63). -/
def maskOf (e : Entry) : Nat := (2 ^ e.plen - 1) * 2 ^ (16 - e.plen)

/-- `match_e` (R63). -/
def matchOf (e : Entry) : Nat := e.pval * 2 ^ (16 - e.plen)

/-- The candidates `C` (R112), each an entry with its index, in ascending order of index. -/
def candidates (t : List Entry) (w : Word) : List (Entry × Nat) :=
  t.zipIdx.filter (fun p => matchesWord p.1 w)

/-- `L` (R115): the greatest prefix length among the candidates. -/
def longest : List (Entry × Nat) → Nat
  | [] => 0
  | p :: rest => max p.1.plen (longest rest)

/-- `W` (R115): the candidates of length `L`, in ascending order of index. -/
def winners (c : List (Entry × Nat)) : List (Entry × Nat) :=
  c.filter (fun p => p.1.plen == longest c)

/-- The body of DECODE (R119) on the entries `T[0] .. T[n-1]`: no candidate (R116), a unique winner (R118), or a tie
(R117). -/
def decodeOutcome (t : List Entry) (w : Word) : DecodeOutcome :=
  match winners (candidates t w) with
  | [] => .unknownOpcode
  | [p] => .decoded p.2 p.1.mnemonic (rawFields p.1 w) (fieldMap p.1 w)
  | tied => .ambiguousEncoding (tied.map (·.2))

/-- The entries an operation may read: `T[0] .. T[n-1]` (R33). -/
def State.liveTable (s : State) : List Entry := s.table.take s.n

end Sys2Proof.Machine
end

