-- ==== Sys2Proof/Machine/Ops.lean ====
section
/-! DEFINITION. The port: how requests reach the block and responses leave it (D2, R48), and RESET (R210).
The block has no memory and no register file (R28, R40), and it takes no exception (R185, R190): there is no operation
for those. A refused request gets no response and changes no state (R15); at the port that is `finish` with nothing to
say. -/

namespace Sys2Proof.Machine

/-- The oldest request leaves the queue, and its response, if it has one, leaves the block after all earlier
responses (R48). -/
def State.finish (s : State) (answer : Option Response) : State :=
  { s with requests := s.requests.tail, responses := s.responses ++ answer.toList }

/-- The host issues a request. -/
def State.issue (s : State) (r : Request) : State := { s with requests := s.requests ++ [r] }

/-- The host issues a DECODE with a value of its own: a value outside `0 .. 2^16 - 1` is refused at the host boundary and
never reaches the block (R45, D26). -/
def State.issueDecode (s : State) (seq v : Nat) : Option State :=
  if v < 2 ^ 16 then some (s.issue (.decode seq (BitVec.ofNat 16 v))) else none

/-- Every state element of the block at its reset value (R33, R210). -/
def State.resetBlock (s : State) : State :=
  { s with status := .unloaded, n := 0, table := [], errCode := .noError, errIndex := 0, dupField := false }

/-- Whether a RESET waits among the requests. -/
def resetWaits (rs : List Request) : Bool := rs.any (fun r => decide (r = Request.reset))

/-- The requests issued after the first RESET. -/
def afterReset : List Request → List Request
  | [] => []
  | .reset :: rest => rest
  | .load _ :: rest => afterReset rest
  | .decode _ _ :: rest => afterReset rest

/-- RESET (R210): every request issued before it and not yet answered is dropped without a response, and the block takes
its reset values. When RESET is the oldest request there is nothing to drop. The only requests it can find in its way are
DECODEs and LOADs standing behind a DECODE while a table is loaded. R210 names the DECODEs; that the LOADs are dropped with
them is the model's (DEDUCED from R103, which refuses a LOAD in LOADED: notes/assumptions/2.md). -/
def execReset (s : State) : State :=
  { s.resetBlock with requests := afterReset s.requests }

/-- A DECODE that is accepted while a RESET waits behind it: whether it is answered before that RESET is open (R214,
R215). -/
def State.resetChoiceOpen (s : State) : Bool :=
  decide (s.status = .loaded) && resetWaits s.requests

/-- The free choice numbered `choices` has been taken. -/
def State.countChoice (s : State) : State := { s with choices := s.choices + 1 }

end Sys2Proof.Machine
end

