-- ==== Sys2Proof/Machine/DecodeOp.lean ====
section
/-! DEFINITION. DECODE (R119) at the port: the operation every instruction's meaning is one line over. -/

namespace Sys2Proof.Machine

/-- DECODE of the word `w` for the DECODE request that is the oldest at the port: refused unless a table is loaded (R110),
else answered with the request's own tag (R120) from the loaded table. The block itself is unchanged (R121). Where no
DECODE is the oldest request there is nothing to answer. `STATUS` is tested when the request is served, not when it is
issued (DESIGN CHOICE, notes/assumptions/12.md), and a refused request is taken away (DEDUCED,
notes/assumptions/7.md). -/
def decodeRequest (w : Word) (s : State) : State :=
  match s.requests with
  | .decode seq _ :: _ =>
    match s.status with
    | .loaded => s.finish (some (.decode seq (decodeOutcome s.liveTable w)))
    | _ => s.finish none
  | _ => s

end Sys2Proof.Machine
end

