-- ==== Sys2Proof/Machine/Arithmetic.lean ====
section
/-! DEFINITION. The meanings of the arithmetic entries.
An instruction is a table entry and its meaning is the
decode result it produces (R9): the block is given the instruction's word, written here from the rule's `match` value and
operand bits, and answers the DECODE request at its port from the loaded table (R119). Under REF31 that answer is the one
the rule states; under another table it is what that table gives the word (R4). -/

namespace Sys2Proof.Machine

/-- R142 `ADDWF`, 001001daffffffff: match 0x2400, mask 0xFC00. -/
def execAddwf (d a : BitVec 1) (f : BitVec 8) (s : State) : Host.Outcome State Fault Refusal :=
  .next (decodeRequest (wordFda 0x2400 d a f) s)

/-- R143 `ADDWFC`, 001000daffffffff: match 0x2000, mask 0xFC00. -/
def execAddwfc (d a : BitVec 1) (f : BitVec 8) (s : State) : Host.Outcome State Fault Refusal :=
  .next (decodeRequest (wordFda 0x2000 d a f) s)

/-- R150 `DECF`, 000001daffffffff: match 0x0400, mask 0xFC00. -/
def execDecf (d a : BitVec 1) (f : BitVec 8) (s : State) : Host.Outcome State Fault Refusal :=
  .next (decodeRequest (wordFda 0x0400 d a f) s)

/-- R153 `INCF`, 001010daffffffff: match 0x2800, mask 0xFC00. -/
def execIncf (d a : BitVec 1) (f : BitVec 8) (s : State) : Host.Outcome State Fault Refusal :=
  .next (decodeRequest (wordFda 0x2800 d a f) s)

/-- R160 `MULWF`, 0000001affffffff: match 0x0200, mask 0xFE00. -/
def execMulwf (a : BitVec 1) (f : BitVec 8) (s : State) : Host.Outcome State Fault Refusal :=
  .next (decodeRequest (wordFa 0x0200 a f) s)

/-- R161 `NEGF`, 0110110affffffff: match 0x6C00, mask 0xFE00. -/
def execNegf (a : BitVec 1) (f : BitVec 8) (s : State) : Host.Outcome State Fault Refusal :=
  .next (decodeRequest (wordFa 0x6C00 a f) s)

/-- R167 `SUBFWB`, 010101daffffffff: match 0x5400, mask 0xFC00. -/
def execSubfwb (d a : BitVec 1) (f : BitVec 8) (s : State) : Host.Outcome State Fault Refusal :=
  .next (decodeRequest (wordFda 0x5400 d a f) s)

/-- R168 `SUBWF`, 010111daffffffff: match 0x5C00, mask 0xFC00. -/
def execSubwf (d a : BitVec 1) (f : BitVec 8) (s : State) : Host.Outcome State Fault Refusal :=
  .next (decodeRequest (wordFda 0x5C00 d a f) s)

/-- R169 `SUBWFB`, 010110daffffffff: match 0x5800, mask 0xFC00. -/
def execSubwfb (d a : BitVec 1) (f : BitVec 8) (s : State) : Host.Outcome State Fault Refusal :=
  .next (decodeRequest (wordFda 0x5800 d a f) s)

end Sys2Proof.Machine
end

