-- ==== Sys2Proof/Machine/FileMove.lean ====
section
/-! DEFINITION. The meanings of the move entries; the word after a MOVFF is decoded on its own (R71, R126).
An instruction is a table entry and its meaning is the
decode result it produces (R9): the block is given the instruction's word, written here from the rule's `match` value and
operand bits, and answers the DECODE request at its port from the loaded table (R119). Under REF31 that answer is the one
the rule states; under another table it is what that table gives the word (R4). -/

namespace Sys2Proof.Machine

/-- R157 `MOVF`, 010100daffffffff: match 0x5000, mask 0xFC00. -/
def execMovf (d a : BitVec 1) (f : BitVec 8) (s : State) : Host.Outcome State Fault Refusal :=
  .next (decodeRequest (wordFda 0x5000 d a f) s)

/-- R158 `MOVFF`, 1100ssssssssssss: match 0xC000, mask 0xF000. -/
def execMovff (src : BitVec 12) (s : State) : Host.Outcome State Fault Refusal :=
  .next (decodeRequest (wordF12 0xC000 src) s)

/-- R159 `MOVWF`, 0110111affffffff: match 0x6E00, mask 0xFE00. -/
def execMovwf (a : BitVec 1) (f : BitVec 8) (s : State) : Host.Outcome State Fault Refusal :=
  .next (decodeRequest (wordFa 0x6E00 a f) s)

end Sys2Proof.Machine
end

