-- ==== Sys2Proof/Machine/Logic.lean ====
section
/-! DEFINITION. The meanings of the logic, clear, set and swap entries.
An instruction is a table entry and its meaning is the
decode result it produces (R9): the block is given the instruction's word, written here from the rule's `match` value and
operand bits, and answers the DECODE request at its port from the loaded table (R119). Under REF31 that answer is the one
the rule states; under another table it is what that table gives the word (R4). -/

namespace Sys2Proof.Machine

/-- R144 `ANDWF`, 000101daffffffff: match 0x1400, mask 0xFC00. -/
def execAndwf (d a : BitVec 1) (f : BitVec 8) (s : State) : Host.Outcome State Fault Refusal :=
  .next (decodeRequest (wordFda 0x1400 d a f) s)

/-- R145 `CLRF`, 0110101affffffff: match 0x6A00, mask 0xFE00. -/
def execClrf (a : BitVec 1) (f : BitVec 8) (s : State) : Host.Outcome State Fault Refusal :=
  .next (decodeRequest (wordFa 0x6A00 a f) s)

/-- R146 `COMF`, 000111daffffffff: match 0x1C00, mask 0xFC00. -/
def execComf (d a : BitVec 1) (f : BitVec 8) (s : State) : Host.Outcome State Fault Refusal :=
  .next (decodeRequest (wordFda 0x1C00 d a f) s)

/-- R156 `IORWF`, 000100daffffffff: match 0x1000, mask 0xFC00. -/
def execIorwf (d a : BitVec 1) (f : BitVec 8) (s : State) : Host.Outcome State Fault Refusal :=
  .next (decodeRequest (wordFda 0x1000 d a f) s)

/-- R166 `SETF`, 0110100affffffff: match 0x6800, mask 0xFE00. -/
def execSetf (a : BitVec 1) (f : BitVec 8) (s : State) : Host.Outcome State Fault Refusal :=
  .next (decodeRequest (wordFa 0x6800 a f) s)

/-- R170 `SWAPF`, 001110daffffffff: match 0x3800, mask 0xFC00. -/
def execSwapf (d a : BitVec 1) (f : BitVec 8) (s : State) : Host.Outcome State Fault Refusal :=
  .next (decodeRequest (wordFda 0x3800 d a f) s)

/-- R172 `XORWF`, 000110daffffffff: match 0x1800, mask 0xFC00. -/
def execXorwf (d a : BitVec 1) (f : BitVec 8) (s : State) : Host.Outcome State Fault Refusal :=
  .next (decodeRequest (wordFda 0x1800 d a f) s)

end Sys2Proof.Machine
end

