-- ==== Sys2Proof/Machine/Rotate.lean ====
section
/-! DEFINITION. The meanings of the rotate entries.
An instruction is a table entry and its meaning is the
decode result it produces (R9): the block is given the instruction's word, written here from the rule's `match` value and
operand bits, and answers the DECODE request at its port from the loaded table (R119). Under REF31 that answer is the one
the rule states; under another table it is what that table gives the word (R4). -/

namespace Sys2Proof.Machine

/-- R162 `RLCF`, 001101daffffffff: match 0x3400, mask 0xFC00. -/
def execRlcf (d a : BitVec 1) (f : BitVec 8) (s : State) : Host.Outcome State Fault Refusal :=
  .next (decodeRequest (wordFda 0x3400 d a f) s)

/-- R163 `RLNCF`, 010001daffffffff: match 0x4400, mask 0xFC00. -/
def execRlncf (d a : BitVec 1) (f : BitVec 8) (s : State) : Host.Outcome State Fault Refusal :=
  .next (decodeRequest (wordFda 0x4400 d a f) s)

/-- R164 `RRCF`, 001100daffffffff: match 0x3000, mask 0xFC00. -/
def execRrcf (d a : BitVec 1) (f : BitVec 8) (s : State) : Host.Outcome State Fault Refusal :=
  .next (decodeRequest (wordFda 0x3000 d a f) s)

/-- R165 `RRNCF`, 010000daffffffff: match 0x4000, mask 0xFC00. -/
def execRrncf (d a : BitVec 1) (f : BitVec 8) (s : State) : Host.Outcome State Fault Refusal :=
  .next (decodeRequest (wordFda 0x4000 d a f) s)

end Sys2Proof.Machine
end

