-- ==== Sys2Proof/Machine/Skip.lean ====
section
/-! DEFINITION. The meanings of the compare, test and skip entries; the block skips nothing (R126).
An instruction is a table entry and its meaning is the
decode result it produces (R9): the block is given the instruction's word, written here from the rule's `match` value and
operand bits, and answers the DECODE request at its port from the loaded table (R119). Under REF31 that answer is the one
the rule states; under another table it is what that table gives the word (R4). -/

namespace Sys2Proof.Machine

/-- R147 `CPFSEQ`, 0110001affffffff: match 0x6200, mask 0xFE00. -/
def execCpfseq (a : BitVec 1) (f : BitVec 8) (s : State) : Host.Outcome State Fault Refusal :=
  .next (decodeRequest (wordFa 0x6200 a f) s)

/-- R148 `CPFSGT`, 0110010affffffff: match 0x6400, mask 0xFE00. -/
def execCpfsgt (a : BitVec 1) (f : BitVec 8) (s : State) : Host.Outcome State Fault Refusal :=
  .next (decodeRequest (wordFa 0x6400 a f) s)

/-- R149 `CPFSLT`, 0110000affffffff: match 0x6000, mask 0xFE00. -/
def execCpfslt (a : BitVec 1) (f : BitVec 8) (s : State) : Host.Outcome State Fault Refusal :=
  .next (decodeRequest (wordFa 0x6000 a f) s)

/-- R151 `DECFSZ`, 001011daffffffff: match 0x2C00, mask 0xFC00. -/
def execDecfsz (d a : BitVec 1) (f : BitVec 8) (s : State) : Host.Outcome State Fault Refusal :=
  .next (decodeRequest (wordFda 0x2C00 d a f) s)

/-- R152 `DCFSNZ`, 010011daffffffff: match 0x4C00, mask 0xFC00. -/
def execDcfsnz (d a : BitVec 1) (f : BitVec 8) (s : State) : Host.Outcome State Fault Refusal :=
  .next (decodeRequest (wordFda 0x4C00 d a f) s)

/-- R154 `INCFSZ`, 001111daffffffff: match 0x3C00, mask 0xFC00. -/
def execIncfsz (d a : BitVec 1) (f : BitVec 8) (s : State) : Host.Outcome State Fault Refusal :=
  .next (decodeRequest (wordFda 0x3C00 d a f) s)

/-- R155 `INFSNZ`, 010010daffffffff: match 0x4800, mask 0xFC00. -/
def execInfsnz (d a : BitVec 1) (f : BitVec 8) (s : State) : Host.Outcome State Fault Refusal :=
  .next (decodeRequest (wordFda 0x4800 d a f) s)

/-- R171 `TSTFSZ`, 0110011affffffff: match 0x6600, mask 0xFE00. -/
def execTstfsz (a : BitVec 1) (f : BitVec 8) (s : State) : Host.Outcome State Fault Refusal :=
  .next (decodeRequest (wordFa 0x6600 a f) s)

end Sys2Proof.Machine
end

