-- ==== Sys2Proof/Machine/Dispatch.lean ====
section
/-! DEFINITION. One arm per constructor of `Instr`, each a direct call of the instruction's meaning. -/

namespace Sys2Proof.Machine

def exec (i : Instr) (s : State) : Host.Outcome State Fault Refusal :=
  match i with
  | .addwf d a f => Sys2Proof.Machine.execAddwf d a f s
  | .addwfc d a f => Sys2Proof.Machine.execAddwfc d a f s
  | .andwf d a f => Sys2Proof.Machine.execAndwf d a f s
  | .clrf a f => Sys2Proof.Machine.execClrf a f s
  | .comf d a f => Sys2Proof.Machine.execComf d a f s
  | .cpfseq a f => Sys2Proof.Machine.execCpfseq a f s
  | .cpfsgt a f => Sys2Proof.Machine.execCpfsgt a f s
  | .cpfslt a f => Sys2Proof.Machine.execCpfslt a f s
  | .decf d a f => Sys2Proof.Machine.execDecf d a f s
  | .decfsz d a f => Sys2Proof.Machine.execDecfsz d a f s
  | .dcfsnz d a f => Sys2Proof.Machine.execDcfsnz d a f s
  | .incf d a f => Sys2Proof.Machine.execIncf d a f s
  | .incfsz d a f => Sys2Proof.Machine.execIncfsz d a f s
  | .infsnz d a f => Sys2Proof.Machine.execInfsnz d a f s
  | .iorwf d a f => Sys2Proof.Machine.execIorwf d a f s
  | .movf d a f => Sys2Proof.Machine.execMovf d a f s
  | .movff src => Sys2Proof.Machine.execMovff src s
  | .movwf a f => Sys2Proof.Machine.execMovwf a f s
  | .mulwf a f => Sys2Proof.Machine.execMulwf a f s
  | .negf a f => Sys2Proof.Machine.execNegf a f s
  | .rlcf d a f => Sys2Proof.Machine.execRlcf d a f s
  | .rlncf d a f => Sys2Proof.Machine.execRlncf d a f s
  | .rrcf d a f => Sys2Proof.Machine.execRrcf d a f s
  | .rrncf d a f => Sys2Proof.Machine.execRrncf d a f s
  | .setf a f => Sys2Proof.Machine.execSetf a f s
  | .subfwb d a f => Sys2Proof.Machine.execSubfwb d a f s
  | .subwf d a f => Sys2Proof.Machine.execSubwf d a f s
  | .subwfb d a f => Sys2Proof.Machine.execSubwfb d a f s
  | .swapf d a f => Sys2Proof.Machine.execSwapf d a f s
  | .tstfsz a f => Sys2Proof.Machine.execTstfsz a f s
  | .xorwf d a f => Sys2Proof.Machine.execXorwf d a f s

end Sys2Proof.Machine
end

