-- ==== Sys2Proof/Machine/Fetch.lean ====
section
/-! DEFINITION. The word of a DECODE request, taken as the instruction it encodes. -/

namespace Sys2Proof.Machine

/-- The oldest request is a DECODE of `w`: run the REF31 instruction `w` encodes, or, where it encodes none, DECODE the word
itself. Both are the one operation of R119 on the loaded table (`decodeRequest`). -/
def runWord (w : Word) (s : State) : Host.Outcome State Fault Refusal :=
  match decodeWord w with
  | .ok i => exec i s
  | .error _ => .next (decodeRequest w s)

/-- A DECODE of `w` is served: at once, or, where a RESET waits behind it and a table is loaded, as the free choice
says, before or never (R210, R214, R215). -/
def serveDecode (w : Word) (s : State) : Host.Outcome State Fault Refusal :=
  if s.resetChoiceOpen then
    if Config.resetOvertakes s.choices then .next (execReset s.countChoice) else runWord w s.countChoice
  else runWord w s

end Sys2Proof.Machine
end

