-- ==== Sys2Proof/Machine/Flags.lean ====
section
/-! DEFINITION. The registers the host can read and the one flag LOAD computes (R23 to R26, R100, R181, R182). The block has
no condition codes (R30): the outcome kind of a response is its only status and is not retained. -/

namespace Sys2Proof.Machine

/-- The value of `STATUS` (R23). -/
def Status.code : Status → Nat
  | .unloaded => 0
  | .loaded => 1
  | .malformed => 2

/-- The value of `ERR_CODE` (R181). -/
def ErrCode.code : ErrCode → Nat
  | .noError => 0
  | .widthSum => 1
  | .prefixLength => 2
  | .fieldWidth => 3
  | .dupMnemonic => 4
  | .tableTooLarge => 5
  | .fieldName => 6
  | .emptyMnemonic => 7
  | .prefixChar => 8

/-- The `kind` of a DECODE response (R182). -/
def DecodeOutcome.kind : DecodeOutcome → Nat
  | .decoded _ _ _ _ => 0
  | .unknownOpcode => 1
  | .ambiguousEncoding _ => 2

/-- What the host reads from a register, at any time and without a side effect (R23 to R26). -/
def State.readReg (s : State) : HostReg → Nat
  | .status => s.status.code
  | .errCode => s.errCode.code
  | .errIndex => s.errIndex
  | .dupField => s.dupField.toNat

/-- Whether an entry names a field twice (R100). Two unnamed fields count as duplicates. -/
def namesRepeat (e : Entry) : Bool := decide (¬ (e.fields.map (·.name)).Nodup)

/-- `DUP_FIELD` for a table LOAD stores (R100, R104). -/
def dupFlag (t : List Entry) : Bool := t.any namesRepeat

end Sys2Proof.Machine
end

