-- ==== Sys2Proof/Machine/Load.lean ====
section
/-! DEFINITION. LOAD (R90 to R105): the checks in the order of R99, what a description is stored as, and the operation. -/

namespace Sys2Proof.Machine

/-- `val` of a prefix string (R14), read most significant bit first. -/
def bitsVal (bits : String) : Nat :=
  bits.toList.foldl (fun acc c => 2 * acc + (if c = '1' then 1 else 0)) 0

/-- The checks of an entry's fields, for each field in list order the name (R97), then the width (R98). -/
def checkFields : List FieldDesc → Option ErrCode
  | [] => none
  | f :: rest =>
    if f.name.length > 1 then some .fieldName
    else if f.width < 1 then some .fieldWidth
    else checkFields rest

/-- The prefix length plus the field widths (R94). A description's width is any integer. -/
def totalWidth (e : EntryDesc) : Int := (e.bits.length : Int) + (e.fields.map (·.width)).sum

/-- The checks of one entry in the order of R99: R93 (empty, then repeated), R95, R96, the fields, R94. `earlier` holds
the mnemonics of the entries before it. -/
def checkEntry (earlier : List String) (e : EntryDesc) : Option ErrCode :=
  if e.mnemonic.length = 0 then some .emptyMnemonic
  else if e.mnemonic ∈ earlier then some .dupMnemonic
  else if e.bits.length < 1 ∨ e.bits.length > 16 then some .prefixLength
  else if e.bits.toList.any (fun c => decide (c ≠ '0' ∧ c ≠ '1')) then some .prefixChar
  else (checkFields e.fields).or (if totalWidth e ≠ 16 then some .widthSum else none)

/-- The first entry that fails a check, with the code of its first failing check (R99). -/
def checkFrom (earlier : List String) (i : Nat) : List EntryDesc → Option (ErrCode × Nat)
  | [] => none
  | e :: rest =>
    match checkEntry earlier e with
    | some c => some (c, i)
    | none => checkFrom (earlier ++ [e.mnemonic]) (i + 1) rest

/-- The failure LOAD reports, if any: the size check first (R92), then the entries in order (R99). -/
def firstFailure (limit : Nat) (d : List EntryDesc) : Option (ErrCode × Nat) :=
  if d.length > limit then some (.tableTooLarge, 0) else checkFrom [] 0 d

/-- What an entry of an accepted description is stored as (R104, R105). -/
def storedEntry (e : EntryDesc) : Entry :=
  { mnemonic := e.mnemonic, plen := e.bits.length, pval := bitsVal e.bits,
    fields := e.fields.map (fun f => ⟨f.name.toList.head?, f.width.toNat⟩) }

/-- `fail(c, i)` of R104: nothing is stored, the cause is recorded. -/
def State.rejectTable (s : State) (c : ErrCode) (i : Nat) : State :=
  { s with status := .malformed, n := 0, table := [], dupField := false, errCode := c, errIndex := i }

/-- The success branch of R104: the whole description is stored at once (R91). -/
def State.storeTable (s : State) (d : List EntryDesc) : State :=
  { s with status := .loaded, n := d.length, table := d.map storedEntry, dupField := dupFlag (d.map storedEntry) }

/-- LOAD (R104), with the size limit as an argument: refused outside UNLOADED (R103). `STATUS` is tested when the LOAD is
served, not when it is issued (DESIGN CHOICE, notes/assumptions/12.md), and a refused LOAD is taken away (DEDUCED,
notes/assumptions/7.md). -/
def execLoad (limit : Nat) (d : List EntryDesc) (s : State) : State :=
  match s.status with
  | .unloaded =>
    match firstFailure limit d with
    | some (c, i) => (s.rejectTable c i).finish (some (.loadFailed c i))
    | none => (s.storeTable d).finish (some .loadOK)
  | _ => s.finish none

end Sys2Proof.Machine
end

