-- ==== Sys2Proof/Machine/RefTable.lean ====
section
/-! DEFINITION. The reference table REF31 (R140): the description LOAD is given, in the order of R140, the table store
it leaves, the response R142 to R172 state for each entry, and the opcode map of R67. The block has no opcode knowledge
(R4): nothing in LOAD, DECODE or RESET reads this file; `State.withFetchWord` and the statements do. -/

namespace Sys2Proof.Machine

/-- The field list of format FDA (R64). -/
def fdaFields : List FieldDesc := [⟨"d", 1⟩, ⟨"a", 1⟩, ⟨"f", 8⟩]

/-- The field list of format FA (R65). -/
def faFields : List FieldDesc := [⟨"a", 1⟩, ⟨"f", 8⟩]

/-- The field list of format F12 (R66): one unnamed field. -/
def f12Fields : List FieldDesc := [⟨"", 12⟩]

/-- Rows 0 to 15 of REF31 (R140). -/
def ref31Low : List EntryDesc :=
  [ ⟨"ADDWF", "001001", fdaFields⟩,
    ⟨"ADDWFC", "001000", fdaFields⟩,
    ⟨"ANDWF", "000101", fdaFields⟩,
    ⟨"CLRF", "0110101", faFields⟩,
    ⟨"COMF", "000111", fdaFields⟩,
    ⟨"CPFSEQ", "0110001", faFields⟩,
    ⟨"CPFSGT", "0110010", faFields⟩,
    ⟨"CPFSLT", "0110000", faFields⟩,
    ⟨"DECF", "000001", fdaFields⟩,
    ⟨"DECFSZ", "001011", fdaFields⟩,
    ⟨"DCFSNZ", "010011", fdaFields⟩,
    ⟨"INCF", "001010", fdaFields⟩,
    ⟨"INCFSZ", "001111", fdaFields⟩,
    ⟨"INFSNZ", "010010", fdaFields⟩,
    ⟨"IORWF", "000100", fdaFields⟩,
    ⟨"MOVF", "010100", fdaFields⟩ ]

/-- Rows 16 to 30 of REF31 (R140). -/
def ref31High : List EntryDesc :=
  [ ⟨"MOVFF", "1100", f12Fields⟩,
    ⟨"MOVWF", "0110111", faFields⟩,
    ⟨"MULWF", "0000001", faFields⟩,
    ⟨"NEGF", "0110110", faFields⟩,
    ⟨"RLCF", "001101", fdaFields⟩,
    ⟨"RLNCF", "010001", fdaFields⟩,
    ⟨"RRCF", "001100", fdaFields⟩,
    ⟨"RRNCF", "010000", fdaFields⟩,
    ⟨"SETF", "0110100", faFields⟩,
    ⟨"SUBFWB", "010101", fdaFields⟩,
    ⟨"SUBWF", "010111", fdaFields⟩,
    ⟨"SUBWFB", "010110", fdaFields⟩,
    ⟨"SWAPF", "001110", fdaFields⟩,
    ⟨"TSTFSZ", "0110011", faFields⟩,
    ⟨"XORWF", "000110", fdaFields⟩ ]

/-- The table description REF31 (R140). -/
def ref31 : List EntryDesc := ref31Low ++ ref31High

/-- What the table store holds after LOAD(REF31) (R104, R140). -/
def ref31Table : List Entry := ref31.map storedEntry

/-- The response content of an FDA entry (R64, R141). -/
def fdaOutcome (index : Nat) (mnemonic : String) (d a : BitVec 1) (f : BitVec 8) : DecodeOutcome :=
  .decoded index mnemonic [d.setWidth 16, a.setWidth 16, f.setWidth 16]
    [(some 'd', d.setWidth 16), (some 'a', a.setWidth 16), (some 'f', f.setWidth 16)]

/-- The response content of an FA entry (R65, R141). -/
def faOutcome (index : Nat) (mnemonic : String) (a : BitVec 1) (f : BitVec 8) : DecodeOutcome :=
  .decoded index mnemonic [a.setWidth 16, f.setWidth 16] [(some 'a', a.setWidth 16), (some 'f', f.setWidth 16)]

/-- The response content of an F12 entry (R66, R141). -/
def f12Outcome (index : Nat) (mnemonic : String) (src : BitVec 12) : DecodeOutcome :=
  .decoded index mnemonic [src.setWidth 16] [(none, src.setWidth 16)]

/-- The response R142 to R172 state for each instruction, under REF31. -/
def ref31Outcome : Instr → DecodeOutcome
  | .addwf d a f => fdaOutcome 0 "ADDWF" d a f
  | .addwfc d a f => fdaOutcome 1 "ADDWFC" d a f
  | .andwf d a f => fdaOutcome 2 "ANDWF" d a f
  | .clrf a f => faOutcome 3 "CLRF" a f
  | .comf d a f => fdaOutcome 4 "COMF" d a f
  | .cpfseq a f => faOutcome 5 "CPFSEQ" a f
  | .cpfsgt a f => faOutcome 6 "CPFSGT" a f
  | .cpfslt a f => faOutcome 7 "CPFSLT" a f
  | .decf d a f => fdaOutcome 8 "DECF" d a f
  | .decfsz d a f => fdaOutcome 9 "DECFSZ" d a f
  | .dcfsnz d a f => fdaOutcome 10 "DCFSNZ" d a f
  | .incf d a f => fdaOutcome 11 "INCF" d a f
  | .incfsz d a f => fdaOutcome 12 "INCFSZ" d a f
  | .infsnz d a f => fdaOutcome 13 "INFSNZ" d a f
  | .iorwf d a f => fdaOutcome 14 "IORWF" d a f
  | .movf d a f => fdaOutcome 15 "MOVF" d a f
  | .movff src => f12Outcome 16 "MOVFF" src
  | .movwf a f => faOutcome 17 "MOVWF" a f
  | .mulwf a f => faOutcome 18 "MULWF" a f
  | .negf a f => faOutcome 19 "NEGF" a f
  | .rlcf d a f => fdaOutcome 20 "RLCF" d a f
  | .rlncf d a f => fdaOutcome 21 "RLNCF" d a f
  | .rrcf d a f => fdaOutcome 22 "RRCF" d a f
  | .rrncf d a f => fdaOutcome 23 "RRNCF" d a f
  | .setf a f => faOutcome 24 "SETF" a f
  | .subfwb d a f => fdaOutcome 25 "SUBFWB" d a f
  | .subwf d a f => fdaOutcome 26 "SUBWF" d a f
  | .subwfb d a f => fdaOutcome 27 "SUBWFB" d a f
  | .swapf d a f => fdaOutcome 28 "SWAPF" d a f
  | .tstfsz a f => faOutcome 29 "TSTFSZ" a f
  | .xorwf d a f => fdaOutcome 30 "XORWF" d a f

/-- One row of the opcode map of R67: a range of words and the mnemonic and field names they decode to, or `none` for
UNKNOWN_OPCODE. -/
structure MapRow where
  lo     : Nat
  hi     : Nat
  decode : Option (String × List (Option Char))
deriving DecidableEq, Repr

/-- The field names of the three formats (R64, R65, R66). -/
def fdaNames : List (Option Char) := [some 'd', some 'a', some 'f']
def faNames : List (Option Char) := [some 'a', some 'f']
def f12Names : List (Option Char) := [none]

/-- The opcode map of REF31 (R67), its first half. -/
def ref31MapLow : List MapRow :=
  [ ⟨0x0000, 0x01FF, none⟩,
    ⟨0x0200, 0x03FF, some ("MULWF", faNames)⟩,
    ⟨0x0400, 0x07FF, some ("DECF", fdaNames)⟩,
    ⟨0x0800, 0x0FFF, none⟩,
    ⟨0x1000, 0x13FF, some ("IORWF", fdaNames)⟩,
    ⟨0x1400, 0x17FF, some ("ANDWF", fdaNames)⟩,
    ⟨0x1800, 0x1BFF, some ("XORWF", fdaNames)⟩,
    ⟨0x1C00, 0x1FFF, some ("COMF", fdaNames)⟩,
    ⟨0x2000, 0x23FF, some ("ADDWFC", fdaNames)⟩,
    ⟨0x2400, 0x27FF, some ("ADDWF", fdaNames)⟩,
    ⟨0x2800, 0x2BFF, some ("INCF", fdaNames)⟩,
    ⟨0x2C00, 0x2FFF, some ("DECFSZ", fdaNames)⟩,
    ⟨0x3000, 0x33FF, some ("RRCF", fdaNames)⟩,
    ⟨0x3400, 0x37FF, some ("RLCF", fdaNames)⟩,
    ⟨0x3800, 0x3BFF, some ("SWAPF", fdaNames)⟩,
    ⟨0x3C00, 0x3FFF, some ("INCFSZ", fdaNames)⟩,
    ⟨0x4000, 0x43FF, some ("RRNCF", fdaNames)⟩,
    ⟨0x4400, 0x47FF, some ("RLNCF", fdaNames)⟩ ]

/-- The opcode map of REF31 (R67), its second half. -/
def ref31MapHigh : List MapRow :=
  [ ⟨0x4800, 0x4BFF, some ("INFSNZ", fdaNames)⟩,
    ⟨0x4C00, 0x4FFF, some ("DCFSNZ", fdaNames)⟩,
    ⟨0x5000, 0x53FF, some ("MOVF", fdaNames)⟩,
    ⟨0x5400, 0x57FF, some ("SUBFWB", fdaNames)⟩,
    ⟨0x5800, 0x5BFF, some ("SUBWFB", fdaNames)⟩,
    ⟨0x5C00, 0x5FFF, some ("SUBWF", fdaNames)⟩,
    ⟨0x6000, 0x61FF, some ("CPFSLT", faNames)⟩,
    ⟨0x6200, 0x63FF, some ("CPFSEQ", faNames)⟩,
    ⟨0x6400, 0x65FF, some ("CPFSGT", faNames)⟩,
    ⟨0x6600, 0x67FF, some ("TSTFSZ", faNames)⟩,
    ⟨0x6800, 0x69FF, some ("SETF", faNames)⟩,
    ⟨0x6A00, 0x6BFF, some ("CLRF", faNames)⟩,
    ⟨0x6C00, 0x6DFF, some ("NEGF", faNames)⟩,
    ⟨0x6E00, 0x6FFF, some ("MOVWF", faNames)⟩,
    ⟨0x7000, 0xBFFF, none⟩,
    ⟨0xC000, 0xCFFF, some ("MOVFF", f12Names)⟩,
    ⟨0xD000, 0xFFFF, none⟩ ]

/-- The opcode map of REF31 over all 65536 words (R67). -/
def ref31Map : List MapRow := ref31MapLow ++ ref31MapHigh

end Sys2Proof.Machine
end

