-- ==== Sys2Proof/Machine/Step.lean ====
section
/-! DEFINITION. One step of the block: the oldest request at the port is served as one transaction (R46, R91, D1). There is
no program counter (R29): the host supplies each word, and the request queue is where an instruction comes from. -/

namespace Sys2Proof.Machine

/-- The block serves its oldest request; with nothing at the port it does nothing (R215). -/
def step (s : State) : Host.Outcome State Fault Refusal :=
  match s.requests with
  | [] => .next s
  | .reset :: _ => .next (execReset s)
  | .load d :: _ => .next (execLoad Config.maxEntries d s)
  | .decode _ w :: _ => serveDecode w s

/-- `s` with REF31 loaded and a DECODE of the given word as its oldest request, so that the very next step runs that
instruction (notes/assumptions/4.md). RESETs waiting at the port are taken away: one of them could overtake the
DECODE. -/
def State.withFetchWord (s : State) (nbits w : Nat) : State :=
  { s with
    status := .loaded, n := 31, table := ref31Table, errCode := .noError, errIndex := 0, dupField := false,
    requests := .decode 0 (BitVec.ofNat 16 (w % 2 ^ nbits)) :: s.requests.filter (fun r => decide (r ≠ Request.reset)) }

end Sys2Proof.Machine
end

