-- ==== Sys2Proof/Machine/Packed.lean ====
section
/-! DEFINITION. The hardware representation of a stored entry (R22), beside the plain one of R21 that the model computes
with. The mnemonic is held alongside as it is. R22 gives 15 field slots and leaves open what those beyond `nf` hold: here
an entry has its first `nf` slots and no others (DESIGN CHOICE, notes/assumptions/13.md). -/

namespace Sys2Proof.Machine

/-- A field slot (R22): the width in 4 bits and a name code, 0 for the empty name, else the character. -/
structure PackedField where
  width : BitVec 4
  name  : Nat
deriving DecidableEq, Repr

/-- An entry as R22 represents it, with the slots `1 .. nf` only (DESIGN CHOICE, notes/assumptions/13.md). -/
structure PackedEntry where
  mnemonic : String
  plen     : BitVec 5
  pval     : BitVec 16
  nf       : BitVec 4
  slots    : List PackedField
deriving DecidableEq, Repr

/-- The name code of R22. The character with code 0, used as a name, gets the code of the empty name (DEDUCED,
notes/assumptions/10.md). -/
def nameCode : Option Char → Nat
  | none => 0
  | some c => c.toNat

/-- The name a code stands for. -/
def nameOfCode (k : Nat) : Option Char := if k = 0 then none else some (Char.ofNat k)

/-- An entry in the representation of R22. What the slots beyond `nf` hold is open there; none is kept (DESIGN CHOICE,
notes/assumptions/13.md). -/
def packEntry (e : Entry) : PackedEntry :=
  { mnemonic := e.mnemonic, plen := BitVec.ofNat 5 e.plen, pval := BitVec.ofNat 16 e.pval,
    nf := BitVec.ofNat 4 e.fields.length,
    slots := e.fields.map (fun f => ⟨BitVec.ofNat 4 f.width, nameCode f.name⟩) }

/-- The entry a representation stands for: the first `nf` slots are its fields. -/
def unpackEntry (p : PackedEntry) : Entry :=
  { mnemonic := p.mnemonic, plen := p.plen.toNat, pval := p.pval.toNat,
    fields := (p.slots.take p.nf.toNat).map (fun f => ⟨nameOfCode f.name, f.width.toNat⟩) }

end Sys2Proof.Machine
end

