-- ==== Sys2Proof/Machine/StringView.lean ====
section
/-! DEFINITION. The source's string view of a word (R11, R12, R14): sixteen characters, most significant bit first, and the
prefix comparison character by character that R111 states beside the integer form. DECODE uses the integer form
(Matching.lean); that the two agree is one of the model's statements, and so is the cost bound of R10 and R215. -/

namespace Sys2Proof.Machine

/-- The `len` most significant-first bits of a value. -/
def bitsOf (v : Nat) : Nat → List Bool
  | 0 => []
  | len + 1 => v.testBit len :: bitsOf v len

/-- The word as a string of 16 bits: the character at position `k` is bit `15 - k` (R11). -/
def bitString (w : Word) : List Bool := bitsOf w.toNat 16

/-- `val(s)` (R14): the unsigned value of a bit string read most significant bit first. -/
def val (s : List Bool) : Nat := s.foldl (fun acc b => 2 * acc + b.toNat) 0

/-- The prefix of an entry as a bit string. -/
def prefixBits (e : Entry) : List Bool := bitsOf e.pval e.plen

/-- The characters at string positions `start` to `start + len - 1` (R12). -/
def substring (s : List Bool) (start len : Nat) : List Bool := (s.drop start).take len

/-- The comparison of R111: left to right, stopping at the first mismatching position. The second component counts the bit
comparisons made. -/
def compareBits : List Bool → List Bool → Bool × Nat
  | [], _ => (true, 0)
  | _ :: _, [] => (false, 0)
  | p :: ps, b :: bs => if p = b then ((compareBits ps bs).1, (compareBits ps bs).2 + 1) else (false, 1)

/-- How many bit comparisons a decode of `w` makes when every entry is compared in turn (R10, R215). -/
def decodeCost (t : List Entry) (w : Word) : Nat :=
  (t.map (fun e => (compareBits (prefixBits e) (bitString w)).2)).sum

end Sys2Proof.Machine
end

