-- ==== Sys2Proof/Safety.lean ====
section
/-! DEFINITION. What a sound state of the block is: the relations between its state elements that R20 to R27 and R33 give.
Every run stays inside it; that each step keeps it is one of the model's statements. -/

namespace Sys2Proof.Machine

/-- The invariant of the block. -/
structure State.Inv (s : State) : Prop where
  /-- `n` counts the stored entries (R20, R21). -/
  count : s.n = s.table.length
  /-- `0 <= n <= MAX_ENTRIES` (R21). -/
  bound : s.n ≤ Config.maxEntries
  /-- Every stored entry meets R21, and mnemonics are non-empty and unique (R93). -/
  stored : Table.wf s.table = true
  /-- A table is held only in LOADED (R23, R33). -/
  held : s.status ≠ .loaded → s.table = []
  /-- `DUP_FIELD` is 1 exactly when a stored entry names a field twice (R26). -/
  dup : s.dupField = dupFlag s.table
  /-- `ERR_CODE` is 0 exactly when no LOAD has failed since RESET (R23, R24). -/
  cause : s.errCode = .noError ↔ s.status ≠ .malformed
  /-- `ERR_INDEX` is 0 unless a LOAD has failed (R25). -/
  index : s.status ≠ .malformed → s.errIndex = 0
  /-- `ERR_INDEX` is 0 when the failure is the table-size check (R25). -/
  size : s.errCode = .tableTooLarge → s.errIndex = 0

/-- The block's own six state elements (R20) are the same in two states. -/
structure SameBlock (s t : State) : Prop where
  status : t.status = s.status
  n : t.n = s.n
  table : t.table = s.table
  errCode : t.errCode = s.errCode
  errIndex : t.errIndex = s.errIndex
  dupField : t.dupField = s.dupField

/-- The block's own six state elements have their reset values (R33). -/
structure BlockReset (t : State) : Prop where
  status : t.status = .unloaded
  n : t.n = 0
  table : t.table = []
  errCode : t.errCode = .noError
  errIndex : t.errIndex = 0
  dupField : t.dupField = false

/-- REF31 is loaded (R140): the state in which R142 to R172 state each entry's response. -/
structure HoldsRef31 (s : State) : Prop where
  loaded : s.status = .loaded
  count : s.n = 31
  table : s.table = ref31Table

/-- An entry of a description meets the checks R93 (not empty) and R95 to R98, and R94. -/
structure EntryDescOk (e : EntryDesc) : Prop where
  mnemonic : e.mnemonic ≠ ""
  shortest : 1 ≤ e.bits.length
  longest : e.bits.length ≤ 16
  bits : ∀ c ∈ e.bits.toList, c = '0' ∨ c = '1'
  names : ∀ f ∈ e.fields, f.name.length ≤ 1
  widths : ∀ f ∈ e.fields, 1 ≤ f.width
  fills : (e.bits.length : Int) + (e.fields.map (·.width)).sum = 16

/-- A description LOAD accepts: within the size limit (R92), every entry sound, no mnemonic repeated (R93). -/
structure DescriptionOk (limit : Nat) (d : List EntryDesc) : Prop where
  size : d.length ≤ limit
  entries : ∀ e ∈ d, EntryDescOk e
  unique : (d.map (·.mnemonic)).Nodup

/-- A description's field passes R97 and R98. -/
def FieldDescOk (f : FieldDesc) : Prop := f.name.length ≤ 1 ∧ 1 ≤ f.width

/-- No entry of `t` other than number `i` matches `w` with a prefix at least as long as `len` (the qualifier of R124). -/
def NoRival (t : List Entry) (i len : Nat) (w : Word) : Prop :=
  ∀ (j : Nat) (e : Entry), t[j]? = some e → j ≠ i → matchesWord e w = true → e.plen < len

/-- `L` is the greatest prefix length among the entries of `t` that match `w` (R115). -/
def GreatestLength (t : List Entry) (w : Word) (L : Nat) : Prop :=
  (∃ e ∈ t, matchesWord e w = true ∧ e.plen = L) ∧ ∀ e ∈ t, matchesWord e w = true → e.plen ≤ L

/-- The word of entry `e` with every field 0 (R124). -/
def zeroWord (e : Entry) : Word := BitVec.ofNat 16 (e.pval * 2 ^ (16 - e.plen))

/-- The word of entry `e` with field number `j` at its greatest value and every other field 0 (R124). -/
def maxWord (e : Entry) (j width : Nat) : Word :=
  BitVec.ofNat 16 (e.pval * 2 ^ (16 - e.plen) + (2 ^ width - 1) * 2 ^ (16 - fieldStart e (j + 1)))

end Sys2Proof.Machine
end

