-- ==== Sys2Proof/Certificates/Slice0/Obligations.lean ====
section
/-! DEFINITION. The statements for the provers, from the numbered rules of spec/. Each one's docstring is its meaning in
words; its rules are cited in OBLIGATIONS.json. `exec i s` answers the DECODE request that is the oldest at the port
with the word of `i`; a step calls it for the instruction that request's own word encodes
(Obligations.StepRunsTheDecodedInstruction). -/

open Sys2Proof Sys2Proof.Machine

/-- For every instruction of REF31, with every operand at every value its field admits, decodeWord of its encoding is
that instruction: no bit of an encoding is dropped (the encodings of 42_reference_table.md). -/
def Obligations.DecodeOfEncodeIsTheInstruction : Prop :=
  ∀ i : Instr, decodeWord (encode i) = .ok i

/-- For every 16-bit word that decodes to an instruction of REF31, the encoding of that instruction is the word: each
word has one reading and the decoder reads every bit of it. -/
def Obligations.EncodeOfDecodeIsTheWord : Prop :=
  ∀ (w : Word) (i : Instr), decodeWord w = .ok i → encode i = w

/-- The worked examples of R142 (0x265A), R145 (0x6BC3), R158 (0xC123), R160 (0x03C3), R164 (0x325A) and R171
(0x67C3), bit by bit, decode to their instructions, and 0xF030, the second word of a MOVFF, is rejected. -/
def Obligations.WrittenWordsDecode : Prop :=
  decodeWord 0b0010011001011010#16 = .ok (.addwf 1 0 90)
    ∧ decodeWord 0b0110101111000011#16 = .ok (.clrf 1 195)
    ∧ decodeWord 0b1100000100100011#16 = .ok (.movff 291)
    ∧ decodeWord 0b0000001111000011#16 = .ok (.mulwf 1 195)
    ∧ decodeWord 0b0011001001011010#16 = .ok (.rrcf 1 0 90)
    ∧ decodeWord 0b0110011111000011#16 = .ok (.tstfsz 1 195)
    ∧ decodeWord 0b1111000000110000#16 = .error .unknownOpcode

/-- For each of the 65536 words, DECODE's answer from the table store of REF31 (R119) is the response R142 to R172
state for the instruction the word encodes, with its index, mnemonic, raw values and map, and UNKNOWN_OPCODE where the
word encodes none (R173). -/
def Obligations.BlockUnderRef31AgreesWithEveryEntryRule : Prop :=
  ∀ w : Word,
    decodeOutcome ref31Table w =
      match decodeWord w with
      | .ok i => ref31Outcome i
      | .error _ => .unknownOpcode

/-- The 35 ranges of R67 follow one another from 0x0000 to 0xFFFF. Under REF31 every word of a range decodes to that
row's mnemonic with that format's field names, or is UNKNOWN_OPCODE where the row says so. Exactly 30208 words decode
to an entry and 35328 are UNKNOWN_OPCODE. -/
def Obligations.OpcodeMapOfRef31 : Prop :=
  ref31Map.length = 35 ∧ (ref31Map.head?.map (·.lo)) = some 0 ∧ (ref31Map.getLast?.map (·.hi)) = some 0xFFFF
    ∧ (∀ (k : Nat) (r r' : MapRow), ref31Map[k]? = some r → ref31Map[k + 1]? = some r' → r'.lo = r.hi + 1)
    ∧ (∀ r ∈ ref31Map, ∀ v : Nat, r.lo ≤ v → v ≤ r.hi →
        match r.decode with
        | none => decodeOutcome ref31Table (BitVec.ofNat 16 v) = .unknownOpcode
        | some (mnemonic, names) =>
          ∃ index raw map, decodeOutcome ref31Table (BitVec.ofNat 16 v) = .decoded index mnemonic raw map
            ∧ map.map (·.1) = names)
    ∧ (List.range 65536).countP (fun v => (decodeOutcome ref31Table (BitVec.ofNat 16 v)).kind == 0) = 30208
    ∧ (List.range 65536).countP (fun v => (decodeOutcome ref31Table (BitVec.ofNat 16 v)).kind == 1) = 35328

/-- No prefix of REF31 is a prefix of another entry's. In any table of well-formed entries with that property, and so
under REF31, every word has at most one candidate and no word yields AMBIGUOUS_ENCODING; a word is matched by two
entries only in a table with nested or identical prefixes. -/
def Obligations.Ref31IsPrefixFree : Prop :=
  (∀ (i j : Nat) (A B : Entry), ref31Table[i]? = some A → ref31Table[j]? = some B → i ≠ j →
      ¬ (prefixBits A <+: prefixBits B))
    ∧ (∀ (t : List Entry) (w : Word), t.all Entry.wf = true →
        (∀ (i j : Nat) (A B : Entry), t[i]? = some A → t[j]? = some B → i ≠ j → ¬ (prefixBits A <+: prefixBits B)) →
        (candidates t w).length ≤ 1 ∧ ∀ tied, decodeOutcome t w ≠ .ambiguousEncoding tied)
    ∧ (∀ w : Word, (candidates ref31Table w).length ≤ 1 ∧ ∀ tied, decodeOutcome ref31Table w ≠ .ambiguousEncoding tied)

/-- For every well-formed entry and every word, the entry matches exactly when (w AND mask_e) = match_e, with mask_e
and match_e as R63 defines them; and for REF31 these are the match and mask values opcode_table.json lists, row by
row. -/
def Obligations.MatchIsAMaskTest : Prop :=
  (∀ (e : Entry) (w : Word), e.wf = true → (matchesWord e w = true ↔ w.toNat &&& maskOf e = matchOf e))
    ∧ (∀ e : Entry, maskOf e = (2 ^ e.plen - 1) <<< (16 - e.plen) ∧ matchOf e = e.pval <<< (16 - e.plen))
    ∧ ref31Table.map (fun e => (matchOf e, maskOf e)) =
        [ (0x2400, 0xFC00), (0x2000, 0xFC00), (0x1400, 0xFC00), (0x6A00, 0xFE00), (0x1C00, 0xFC00), (0x6200, 0xFE00) ]
          ++ [ (0x6400, 0xFE00), (0x6000, 0xFE00), (0x0400, 0xFC00), (0x2C00, 0xFC00), (0x4C00, 0xFC00), (0x2800, 0xFC00) ]
          ++ [ (0x3C00, 0xFC00), (0x4800, 0xFC00), (0x1000, 0xFC00), (0x5000, 0xFC00), (0xC000, 0xF000), (0x6E00, 0xFE00) ]
          ++ [ (0x0200, 0xFE00), (0x6C00, 0xFE00), (0x3400, 0xFC00), (0x4400, 0xFC00), (0x3000, 0xFC00), (0x4000, 0xFC00) ]
          ++ [ (0x6800, 0xFE00), (0x5400, 0xFC00), (0x5C00, 0xFC00), (0x5800, 0xFC00), (0x3800, 0xFC00), (0x6600, 0xFE00) ]
          ++ [ (0x1800, 0xFC00) ]

/-- For every well-formed entry and word: the entry matches exactly when w[15:16-plen] equals pval, exactly when the
prefix string begins the word's bit string, and exactly when the left-to-right comparison that stops at the first
mismatch succeeds; and two words that agree on the leading plen bits are both matched or both not, whatever the other
bits are. -/
def Obligations.MatchIsTheCharacterComparison : Prop :=
  ∀ (e : Entry) (w : Word), e.wf = true →
    (matchesWord e w = true ↔ slice w 15 (16 - e.plen) = e.pval)
    ∧ (matchesWord e w = true ↔ prefixBits e <+: bitString w)
    ∧ (compareBits (prefixBits e) (bitString w)).1 = matchesWord e w
    ∧ ∀ w' : Word, (∀ k, 16 - e.plen ≤ k → k < 16 → w.getLsbD k = w'.getLsbD k) → matchesWord e w' = matchesWord e w

/-- For every well-formed entry, word and field F_j: its value in raw is w[hi_j:lo_j] with hi_j = 15 - s_{j-1} and
lo_j = 16 - s_j, which is (w >> lo_j) mod 2^(w_j), lies in 0 .. 2^(w_j)-1, and is val of the characters at string
positions s_{j-1} to s_j - 1. -/
def Obligations.FieldValueIsItsUnsignedSlice : Prop :=
  ∀ (e : Entry) (w : Word) (j : Nat) (f : Field), e.wf = true → e.fields[j]? = some f →
    ∃ v : Word, (rawFields e w)[j]? = some v
      ∧ v.toNat = slice w (15 - fieldStart e j) (16 - fieldStart e (j + 1))
      ∧ v.toNat = w.toNat / 2 ^ (16 - fieldStart e (j + 1)) % 2 ^ f.width
      ∧ v.toNat < 2 ^ f.width
      ∧ v.toNat = val (substring (bitString w) (fieldStart e j) f.width)

/-- For every well-formed entry, s_0 is the prefix length and s_k is 16, so the last field ends at bit 0; the prefix
occupies bits 15 down to 16 - plen, field F_j bits 15 - s_{j-1} down to 16 - s_j, and each of the 16 bits belongs to
exactly one of the prefix or one field. -/
def Obligations.EveryBitBelongsToThePrefixOrOneField : Prop :=
  ∀ e : Entry, e.wf = true →
    fieldStart e 0 = e.plen ∧ fieldStart e e.fields.length = 16
    ∧ (∀ (j : Nat) (f : Field), e.fields[j]? = some f → fieldStart e (j + 1) = fieldStart e j + f.width)
    ∧ ∀ k < 16,
        (16 - e.plen ≤ k ∧ ∀ j < e.fields.length, ¬ (16 - fieldStart e (j + 1) ≤ k ∧ k ≤ 15 - fieldStart e j))
        ∨ (k < 16 - e.plen ∧ ∃ j < e.fields.length, (16 - fieldStart e (j + 1) ≤ k ∧ k ≤ 15 - fieldStart e j)
            ∧ ∀ j' < e.fields.length, (16 - fieldStart e (j' + 1) ≤ k ∧ k ≤ 15 - fieldStart e j') → j' = j)

/-- For every well-formed entry that matches a word, the word's bit string is the prefix followed by each field value
written in that field's width, in field order: extraction loses no bit. -/
def Obligations.MatchedWordIsPrefixThenFields : Prop :=
  ∀ (e : Entry) (w : Word), e.wf = true → matchesWord e w = true →
    bitString w =
      prefixBits e ++ (List.zipWith (fun f v => bitsOf (BitVec.toNat v) f.width) e.fields (rawFields e w)).flatten

/-- For every table and word, DECODE's outcome is UNKNOWN_OPCODE exactly when no entry of the table matches; that
outcome carries no entry index, mnemonic or field value. -/
def Obligations.NoMatchIsUnknownOpcode : Prop :=
  ∀ (t : List Entry) (w : Word), decodeOutcome t w = .unknownOpcode ↔ ∀ e ∈ t, matchesWord e w = false

/-- For every table and word, if two different entries match the word with the greatest matching prefix length L, the
outcome is AMBIGUOUS_ENCODING and carries the strictly ascending list of exactly the indices of the matching entries
of length L. -/
def Obligations.TieIsAmbiguousEncoding : Prop :=
  ∀ (t : List Entry) (w : Word) (L i j : Nat) (A B : Entry), GreatestLength t w L → i ≠ j →
    t[i]? = some A → matchesWord A w = true → A.plen = L → t[j]? = some B → matchesWord B w = true → B.plen = L →
    ∃ tied, decodeOutcome t w = .ambiguousEncoding tied ∧ tied.Pairwise (· < ·)
      ∧ ∀ k, k ∈ tied ↔ ∃ e, t[k]? = some e ∧ matchesWord e w = true ∧ e.plen = L

/-- For every table and word, if entry i matches and every other matching entry has a strictly shorter prefix, the
outcome is DECODED with index i, that entry's mnemonic, its raw values and its field map. -/
def Obligations.UniqueLongestMatchIsDecoded : Prop :=
  ∀ (t : List Entry) (w : Word) (i : Nat) (e : Entry), t[i]? = some e → matchesWord e w = true →
    NoRival t i e.plen w → decodeOutcome t w = .decoded i e.mnemonic (rawFields e w) (fieldMap e w)

/-- For every table and word: kind 1 exactly when nothing matches; kind 2 exactly when two different entries share the
greatest matching length; kind 0 exactly when one entry matches and all other matching entries are strictly shorter,
so a tie below the maximum is not ambiguity. Every outcome has one of these kinds. -/
def Obligations.DecodeOutcomesAreExclusiveAndExhaustive : Prop :=
  ∀ (t : List Entry) (w : Word),
    ((decodeOutcome t w).kind = 1 ↔ ∀ e ∈ t, matchesWord e w = false)
    ∧ ((decodeOutcome t w).kind = 2 ↔ ∃ (L i j : Nat) (A B : Entry), GreatestLength t w L ∧ i ≠ j
        ∧ t[i]? = some A ∧ matchesWord A w = true ∧ A.plen = L ∧ t[j]? = some B ∧ matchesWord B w = true ∧ B.plen = L)
    ∧ ((decodeOutcome t w).kind = 0 ↔
        ∃ (i : Nat) (e : Entry), t[i]? = some e ∧ matchesWord e w = true ∧ NoRival t i e.plen w)
    ∧ (decodeOutcome t w).kind ≤ 2

/-- For every table and word, if entries A and B both match and A's prefix is a strict prefix of B's, the outcome is
never DECODED with A's index. -/
def Obligations.LongerPrefixNeverResolvesToShorter : Prop :=
  ∀ (t : List Entry) (w : Word) (i j : Nat) (A B : Entry), t[i]? = some A → t[j]? = some B →
    matchesWord A w = true → matchesWord B w = true → prefixBits A <+: prefixBits B → prefixBits A ≠ prefixBits B →
    ∀ mnemonic raw map, decodeOutcome t w ≠ .decoded i mnemonic raw map

/-- For every table and word: if the outcome is AMBIGUOUS_ENCODING, at least two indices are tied and all tied entries
have the same prefix bit string; conversely two entries with identical prefixes that match the word are both among the
tied ones unless some matching entry is strictly longer. -/
def Obligations.TiesNeedIdenticalPrefixes : Prop :=
  (∀ (t : List Entry) (w : Word) (tied : List Nat), decodeOutcome t w = .ambiguousEncoding tied →
      2 ≤ tied.length ∧ ∀ i ∈ tied, ∀ j ∈ tied, ∃ A B, t[i]? = some A ∧ t[j]? = some B
        ∧ matchesWord A w = true ∧ matchesWord B w = true ∧ prefixBits A = prefixBits B)
    ∧ (∀ (t : List Entry) (w : Word) (i j : Nat) (A B : Entry), t[i]? = some A → t[j]? = some B → i ≠ j →
        prefixBits A = prefixBits B → matchesWord A w = true → matchesWord B w = true →
        (∀ e ∈ t, matchesWord e w = true → e.plen ≤ A.plen) →
        ∃ tied, decodeOutcome t w = .ambiguousEncoding tied ∧ i ∈ tied ∧ j ∈ tied)

/-- For every well-formed entry with no tie and no longer matching entry for the word in question: (a) the word prefix
++ zeros decodes to its mnemonic with every field 0; (b) the word with F_j at 2^(w_j)-1 and all other fields 0 decodes
to its mnemonic with raw[j] exactly 2^(w_j)-1. -/
def Obligations.ZeroAndMaximumFieldsRoundTrip : Prop :=
  ∀ (t : List Entry) (i : Nat) (e : Entry), t[i]? = some e → e.wf = true →
    (NoRival t i e.plen (zeroWord e) →
      decodeOutcome t (zeroWord e) = .decoded i e.mnemonic (List.replicate e.fields.length 0)
        (fieldMap e (zeroWord e)))
    ∧ ∀ (j : Nat) (f : Field), e.fields[j]? = some f → NoRival t i e.plen (maxWord e j f.width) →
        ∃ raw, decodeOutcome t (maxWord e j f.width) = .decoded i e.mnemonic raw (fieldMap e (maxWord e j f.width))
          ∧ raw[j]? = some (BitVec.ofNat 16 (2 ^ f.width - 1))

/-- For every entry and word, looking a name up in the field map gives the value of the last field with that name (and
nothing where no field has it), the empty name being a key like any other; the keys are the distinct field names in
order of first occurrence. -/
def Obligations.LaterFieldOfOneNameWins : Prop :=
  ∀ (e : Entry) (w : Word),
    (∀ name : Option Char,
      (fieldMap e w).lookup name = ((e.fields.map (·.name)).zip (rawFields e w)).reverse.lookup name)
    ∧ (fieldMap e w).map (·.1) = (e.fields.map (·.name)).eraseDups

/-- For every table and word, comparing every entry's prefix with the word left to right, stopping at the first
mismatch, takes at most (number of entries x 16) bit comparisons. -/
def Obligations.DecodeCostIsBounded : Prop :=
  ∀ (t : List Entry) (w : Word), decodeCost t w ≤ t.length * 16

/-- When the oldest request is a DECODE whose word decodes to instruction i, the step is exec of i at that state,
unless a table is loaded and a RESET waits at the port; then the free choice of assumption 2 (the model's own) decides
whether that RESET is served first or exec of i runs, at the state with the choice counted. -/
def Obligations.StepRunsTheDecodedInstruction : Prop :=
  ∀ (s : State) (seq : Nat) (w : Word) (rest : List Request) (i : Instr),
    s.requests = .decode seq w :: rest → decodeWord w = .ok i →
    (s.status ≠ .loaded ∨ Request.reset ∉ rest → step s = exec i s)
    ∧ (s.status = .loaded → Request.reset ∈ rest →
        step s = if Config.resetOvertakes s.choices then .next (execReset s.countChoice) else exec i s.countChoice)

/-- When the oldest request is DECODE(seq, w): outside LOADED the step takes the request away, gives no response and
changes nothing else; in LOADED with no RESET waiting it gives exactly one response, tagged seq, with the outcome of w
in the entries T[0] .. T[n-1], and changes nothing else. R110 says no response and no state change; that the refused
request is taken away and the block goes on is the model's choice (assumption 7), and so is judging the request when
it is served (assumption 12). A RESET waiting in LOADED is the subject of ResetRestoresTheResetValues. -/
def Obligations.DecodeIsAcceptedOnlyWhenLoaded : Prop :=
  ∀ (s : State) (seq : Nat) (w : Word) (rest : List Request), s.requests = .decode seq w :: rest →
    (s.status ≠ .loaded → step s = .next { s with requests := rest })
    ∧ (s.status = .loaded → Request.reset ∉ rest →
        step s = .next { s with
          requests := rest, responses := s.responses ++ [.decode seq (decodeOutcome (s.table.take s.n) w)] })

/-- Serving a DECODE in any state with no RESET waiting leaves all six state elements unchanged; and in two LOADED
states with the same live table, DECODE of one word gives the same outcome whatever else differs (tags, other
requests, earlier responses, ERR_CODE, ERR_INDEX, DUP_FIELD, entries beyond n). -/
def Obligations.DecodeIsPure : Prop :=
  (∀ (s t : State) (seq : Nat) (w : Word) (rest : List Request), s.requests = .decode seq w :: rest →
      Request.reset ∉ rest → step s = .next t → SameBlock s t)
    ∧ (∀ (s₁ s₂ : State) (seq₁ seq₂ : Nat) (w : Word) (rest₁ rest₂ : List Request),
        s₁.requests = .decode seq₁ w :: rest₁ → s₂.requests = .decode seq₂ w :: rest₂ →
        Request.reset ∉ rest₁ → Request.reset ∉ rest₂ → s₁.status = .loaded → s₂.status = .loaded →
        s₁.table.take s₁.n = s₂.table.take s₂.n →
        ∃ (o : DecodeOutcome) (t₁ t₂ : State), step s₁ = .next t₁ ∧ step s₂ = .next t₂
          ∧ t₁.responses = s₁.responses ++ [.decode seq₁ o] ∧ t₂.responses = s₂.responses ++ [.decode seq₂ o])

/-- From every LOADED state with any list of DECODE requests at the port (and behind them any requests but RESET), as
many steps as there are DECODEs append exactly their responses, in request order, each with its tag and the outcome of
its word in the unchanged table, and change nothing else. UNKNOWN_OPCODE and AMBIGUOUS_ENCODING do not stop the
stream. R48 orders the responses of one requester's stream; that the DECODEs of several requesters stand in one list
at the port, are answered in its order and take one step each is the model's choice (assumption 3). -/
def Obligations.ResponsesLeaveInRequestOrder : Prop :=
  ∀ (stream : List (Nat × Word)) (rest : List Request) (s : State), s.status = .loaded → Request.reset ∉ rest →
    s.requests = stream.map (fun p => Request.decode p.1 p.2) ++ rest →
    Host.Core.run Sys2Proof.core stream.length s = .next { s with
      requests := rest
      responses := s.responses ++ stream.map (fun p => Response.decode p.1 (decodeOutcome (s.table.take s.n) p.2)) }

/-- For every instruction, in every LOADED state whose oldest request is a DECODE, exec answers a next state in which
that request is gone and its response, with its tag and the table's outcome for the instruction's word, has left;
nothing else changes. The block has no opcode knowledge of its own. -/
def Obligations.EveryInstructionIsAnsweredFromTheTable : Prop :=
  ∀ (i : Instr) (s : State) (seq : Nat) (w : Word) (rest : List Request), s.status = .loaded →
    s.requests = .decode seq w :: rest →
    exec i s = .next { s with
      requests := rest, responses := s.responses ++ [.decode seq (decodeOutcome (s.table.take s.n) (encode i))] }

/-- For every instruction, in every state that is not LOADED and whose oldest request is a DECODE, exec answers the
state with that request gone and nothing else changed. The spec says no response and no state change; that the refused
request is taken away and the block goes on is the model's choice (assumption 7). -/
def Obligations.EveryInstructionIsRefusedOutsideLoaded : Prop :=
  ∀ (i : Instr) (s : State) (seq : Nat) (w : Word) (rest : List Request), s.status ≠ .loaded →
    s.requests = .decode seq w :: rest → exec i s = .next { s with requests := rest }

/-- For every instruction and every state, when exec answers a next state the six state elements STATUS, n, T,
ERR_CODE, ERR_INDEX and DUP_FIELD are unchanged, at most the oldest request has gone and at most one response has been
added after the earlier ones (flags written: none, state written: none). -/
def Obligations.InstructionsLeaveTheBlockUnchanged : Prop :=
  ∀ (i : Instr) (s t : State), exec i s = .next t →
    SameBlock s t ∧ t.choices = s.choices ∧ (t.requests = s.requests ∨ t.requests = s.requests.tail)
    ∧ (t.responses = s.responses ∨ ∃ r, t.responses = s.responses ++ [r])

/-- With REF31 loaded and a DECODE the oldest request, exec of each of ADDWF (R142), ADDWFC (R143), DECF (R150), INCF
(R153), MULWF (R160), NEGF (R161), SUBFWB (R167), SUBWF (R168), SUBWFB (R169) answers the next state in which that
request is gone and a DECODED response with the request's tag, the entry's index and mnemonic, raw and map of the
operand values zero-extended to 16 bits has left; nothing else changes, for every operand value. -/
def Obligations.ArithmeticEntriesDecode : Prop :=
  ∀ (s : State) (seq : Nat) (w : Word) (rest : List Request) (d a : BitVec 1) (f : BitVec 8), HoldsRef31 s →
    s.requests = .decode seq w :: rest →
    (exec (.addwf d a f) s = .next { s with
      requests := rest, responses := s.responses ++ [.decode seq (fdaOutcome 0 "ADDWF" d a f)] }) ∧
    (exec (.addwfc d a f) s = .next { s with
      requests := rest, responses := s.responses ++ [.decode seq (fdaOutcome 1 "ADDWFC" d a f)] }) ∧
    (exec (.decf d a f) s = .next { s with
      requests := rest, responses := s.responses ++ [.decode seq (fdaOutcome 8 "DECF" d a f)] }) ∧
    (exec (.incf d a f) s = .next { s with
      requests := rest, responses := s.responses ++ [.decode seq (fdaOutcome 11 "INCF" d a f)] }) ∧
    (exec (.mulwf a f) s = .next { s with
      requests := rest, responses := s.responses ++ [.decode seq (faOutcome 18 "MULWF" a f)] }) ∧
    (exec (.negf a f) s = .next { s with
      requests := rest, responses := s.responses ++ [.decode seq (faOutcome 19 "NEGF" a f)] }) ∧
    (exec (.subfwb d a f) s = .next { s with
      requests := rest, responses := s.responses ++ [.decode seq (fdaOutcome 25 "SUBFWB" d a f)] }) ∧
    (exec (.subwf d a f) s = .next { s with
      requests := rest, responses := s.responses ++ [.decode seq (fdaOutcome 26 "SUBWF" d a f)] }) ∧
    (exec (.subwfb d a f) s = .next { s with
      requests := rest, responses := s.responses ++ [.decode seq (fdaOutcome 27 "SUBWFB" d a f)] })

/-- With REF31 loaded and a DECODE the oldest request, exec of each of ANDWF (R144), CLRF (R145), COMF (R146), IORWF
(R156), SETF (R166), SWAPF (R170), XORWF (R172) answers the next state in which that request is gone and a DECODED
response with the request's tag, the entry's index and mnemonic, raw and map of the operand values zero-extended to 16
bits has left; nothing else changes, for every operand value. -/
def Obligations.LogicEntriesDecode : Prop :=
  ∀ (s : State) (seq : Nat) (w : Word) (rest : List Request) (d a : BitVec 1) (f : BitVec 8), HoldsRef31 s →
    s.requests = .decode seq w :: rest →
    (exec (.andwf d a f) s = .next { s with
      requests := rest, responses := s.responses ++ [.decode seq (fdaOutcome 2 "ANDWF" d a f)] }) ∧
    (exec (.clrf a f) s = .next { s with
      requests := rest, responses := s.responses ++ [.decode seq (faOutcome 3 "CLRF" a f)] }) ∧
    (exec (.comf d a f) s = .next { s with
      requests := rest, responses := s.responses ++ [.decode seq (fdaOutcome 4 "COMF" d a f)] }) ∧
    (exec (.iorwf d a f) s = .next { s with
      requests := rest, responses := s.responses ++ [.decode seq (fdaOutcome 14 "IORWF" d a f)] }) ∧
    (exec (.setf a f) s = .next { s with
      requests := rest, responses := s.responses ++ [.decode seq (faOutcome 24 "SETF" a f)] }) ∧
    (exec (.swapf d a f) s = .next { s with
      requests := rest, responses := s.responses ++ [.decode seq (fdaOutcome 28 "SWAPF" d a f)] }) ∧
    (exec (.xorwf d a f) s = .next { s with
      requests := rest, responses := s.responses ++ [.decode seq (fdaOutcome 30 "XORWF" d a f)] })

/-- With REF31 loaded and a DECODE the oldest request, exec of each of RLCF (R162), RLNCF (R163), RRCF (R164), RRNCF
(R165) answers the next state in which that request is gone and a DECODED response with the request's tag, the entry's
index and mnemonic, raw and map of the operand values zero-extended to 16 bits has left; nothing else changes, for
every operand value. -/
def Obligations.RotateEntriesDecode : Prop :=
  ∀ (s : State) (seq : Nat) (w : Word) (rest : List Request) (d a : BitVec 1) (f : BitVec 8), HoldsRef31 s →
    s.requests = .decode seq w :: rest →
    (exec (.rlcf d a f) s = .next { s with
      requests := rest, responses := s.responses ++ [.decode seq (fdaOutcome 20 "RLCF" d a f)] }) ∧
    (exec (.rlncf d a f) s = .next { s with
      requests := rest, responses := s.responses ++ [.decode seq (fdaOutcome 21 "RLNCF" d a f)] }) ∧
    (exec (.rrcf d a f) s = .next { s with
      requests := rest, responses := s.responses ++ [.decode seq (fdaOutcome 22 "RRCF" d a f)] }) ∧
    (exec (.rrncf d a f) s = .next { s with
      requests := rest, responses := s.responses ++ [.decode seq (fdaOutcome 23 "RRNCF" d a f)] })

/-- With REF31 loaded and a DECODE the oldest request, exec of each of CPFSEQ (R147), CPFSGT (R148), CPFSLT (R149),
DECFSZ (R151), DCFSNZ (R152), INCFSZ (R154), INFSNZ (R155), TSTFSZ (R171) answers the next state in which that request
is gone and a DECODED response with the request's tag, the entry's index and mnemonic, raw and map of the operand
values zero-extended to 16 bits has left; nothing else changes, for every operand value. -/
def Obligations.SkipEntriesDecode : Prop :=
  ∀ (s : State) (seq : Nat) (w : Word) (rest : List Request) (d a : BitVec 1) (f : BitVec 8), HoldsRef31 s →
    s.requests = .decode seq w :: rest →
    (exec (.cpfseq a f) s = .next { s with
      requests := rest, responses := s.responses ++ [.decode seq (faOutcome 5 "CPFSEQ" a f)] }) ∧
    (exec (.cpfsgt a f) s = .next { s with
      requests := rest, responses := s.responses ++ [.decode seq (faOutcome 6 "CPFSGT" a f)] }) ∧
    (exec (.cpfslt a f) s = .next { s with
      requests := rest, responses := s.responses ++ [.decode seq (faOutcome 7 "CPFSLT" a f)] }) ∧
    (exec (.decfsz d a f) s = .next { s with
      requests := rest, responses := s.responses ++ [.decode seq (fdaOutcome 9 "DECFSZ" d a f)] }) ∧
    (exec (.dcfsnz d a f) s = .next { s with
      requests := rest, responses := s.responses ++ [.decode seq (fdaOutcome 10 "DCFSNZ" d a f)] }) ∧
    (exec (.incfsz d a f) s = .next { s with
      requests := rest, responses := s.responses ++ [.decode seq (fdaOutcome 12 "INCFSZ" d a f)] }) ∧
    (exec (.infsnz d a f) s = .next { s with
      requests := rest, responses := s.responses ++ [.decode seq (fdaOutcome 13 "INFSNZ" d a f)] }) ∧
    (exec (.tstfsz a f) s = .next { s with
      requests := rest, responses := s.responses ++ [.decode seq (faOutcome 29 "TSTFSZ" a f)] })

/-- With REF31 loaded and a DECODE the oldest request, exec of each of MOVF (R157), MOVFF (R158), MOVWF (R159) answers
the next state in which that request is gone and a DECODED response with the request's tag, the entry's index and
mnemonic, raw and map of the operand values zero-extended to 16 bits has left; nothing else changes, for every operand
value. -/
def Obligations.MoveEntriesDecode : Prop :=
  ∀ (s : State) (seq : Nat) (w : Word) (rest : List Request) (d a : BitVec 1) (f : BitVec 8) (src : BitVec 12), HoldsRef31 s →
    s.requests = .decode seq w :: rest →
    (exec (.movf d a f) s = .next { s with
      requests := rest, responses := s.responses ++ [.decode seq (fdaOutcome 15 "MOVF" d a f)] }) ∧
    (exec (.movff src) s = .next { s with
      requests := rest, responses := s.responses ++ [.decode seq (f12Outcome 16 "MOVFF" src)] }) ∧
    (exec (.movwf a f) s = .next { s with
      requests := rest, responses := s.responses ++ [.decode seq (faOutcome 17 "MOVWF" a f)] })

/-- When the oldest request is a LOAD and STATUS is LOADED or MALFORMED, the step takes the request away and changes
nothing else: no response, and the table and the registers as they were. R103 says no response and no state change;
that the refused request is taken away and the block goes on is the model's choice (assumption 7), and so is testing
STATUS when the LOAD is served (assumption 12). -/
def Obligations.LoadIsRefusedOutsideUnloaded : Prop :=
  ∀ (s : State) (d : List EntryDesc) (rest : List Request), s.requests = .load d :: rest → s.status ≠ .unloaded →
    step s = .next { s with requests := rest }

/-- In UNLOADED with LOAD(D) the oldest request: if D is within MAX_ENTRIES, every entry meets R93 to R98 and no
mnemonic repeats, the next state holds D's entries in order, n their number, DUP_FIELD set exactly when an entry
repeats a field name, STATUS LOADED and the response LoadOK; otherwise some code c and index i are reported in
LoadFailed, ERR_CODE and ERR_INDEX, STATUS is MALFORMED and no entry is stored. Identical and nested prefixes are
accepted. -/
def Obligations.LoadStoresExactlyTheSoundDescriptions : Prop :=
  ∀ (s : State) (d : List EntryDesc) (rest : List Request), s.requests = .load d :: rest → s.status = .unloaded →
    (DescriptionOk Config.maxEntries d →
      ∃ dup : Bool,
        (dup = true ↔ ∃ e ∈ d, ∃ (j₁ j₂ : Nat) (f₁ f₂ : FieldDesc), j₁ < j₂ ∧ e.fields[j₁]? = some f₁
          ∧ e.fields[j₂]? = some f₂ ∧ f₁.name = f₂.name)
        ∧ step s = .next { s with
            status := .loaded, n := d.length, table := d.map storedEntry, dupField := dup, requests := rest,
            responses := s.responses ++ [.loadOK] })
    ∧ (¬ DescriptionOk Config.maxEntries d →
      ∃ (c : ErrCode) (i : Nat), c ≠ .noError ∧ step s = .next { s with
          status := .malformed, n := 0, table := [], dupField := false, errCode := c, errIndex := i, requests := rest,
          responses := s.responses ++ [.loadFailed c i] })

/-- The size check comes first and reports code 5 with index 0. Then entries are examined in order, and the first
failing entry i gives the code of its first failing check: empty mnemonic, mnemonic of an earlier entry, prefix
length, prefix characters, each field's name then its width in list order, and last the width sum. In UNLOADED the
step on that LOAD reports this code and index and stores nothing. -/
def Obligations.LoadReportsTheFirstFailingCheck : Prop :=
  (∀ (limit : Nat) (d : List EntryDesc), d.length > limit → firstFailure limit d = some (.tableTooLarge, 0))
    ∧ (∀ (limit : Nat) (d : List EntryDesc) (i : Nat) (e : EntryDesc) (c : ErrCode), d.length ≤ limit →
        (∀ (j : Nat) (e' : EntryDesc), j < i → d[j]? = some e' →
          checkEntry ((d.take j).map (·.mnemonic)) e' = none) →
        d[i]? = some e → checkEntry ((d.take i).map (·.mnemonic)) e = some c → firstFailure limit d = some (c, i))
    ∧ (∀ (earlier : List String) (e : EntryDesc),
        (checkEntry earlier e = some .emptyMnemonic ↔ e.mnemonic = "")
        ∧ (checkEntry earlier e = some .dupMnemonic ↔ e.mnemonic ≠ "" ∧ e.mnemonic ∈ earlier)
        ∧ (e.mnemonic ≠ "" → e.mnemonic ∉ earlier →
            (checkEntry earlier e = some .prefixLength ↔ e.bits.length < 1 ∨ e.bits.length > 16)
            ∧ (1 ≤ e.bits.length → e.bits.length ≤ 16 →
                (checkEntry earlier e = some .prefixChar ↔ ∃ c ∈ e.bits.toList, c ≠ '0' ∧ c ≠ '1')
                ∧ ((∀ c ∈ e.bits.toList, c = '0' ∨ c = '1') →
                    (checkEntry earlier e = some .fieldName ↔ ∃ (k : Nat) (f : FieldDesc), e.fields[k]? = some f
                      ∧ f.name.length > 1 ∧ ∀ g ∈ e.fields.take k, FieldDescOk g)
                    ∧ (checkEntry earlier e = some .fieldWidth ↔ ∃ (k : Nat) (f : FieldDesc), e.fields[k]? = some f
                      ∧ f.name.length ≤ 1 ∧ f.width < 1 ∧ ∀ g ∈ e.fields.take k, FieldDescOk g)
                    ∧ (checkEntry earlier e = some .widthSum ↔ (∀ g ∈ e.fields, FieldDescOk g)
                      ∧ (e.bits.length : Int) + (e.fields.map (·.width)).sum ≠ 16)))))
    ∧ (∀ (s : State) (d : List EntryDesc) (rest : List Request) (c : ErrCode) (i : Nat),
        s.requests = .load d :: rest → s.status = .unloaded → firstFailure Config.maxEntries d = some (c, i) →
        step s = .next { s with
          status := .malformed, n := 0, table := [], dupField := false, errCode := c, errIndex := i, requests := rest,
          responses := s.responses ++ [.loadFailed c i] })

/-- For every description entry whose prefix is 1 to 16 characters 0 and 1, the stored plen is the prefix's length,
the stored pval is its value, and the two together give back the prefix character by character; prefixes 0, 00 and 000
share the value 0 and differ in length. -/
def Obligations.StoredPrefixKeepsLeadingZeros : Prop :=
  (∀ e : EntryDesc, 1 ≤ e.bits.length → e.bits.length ≤ 16 → (∀ c ∈ e.bits.toList, c = '0' ∨ c = '1') →
      (storedEntry e).plen = e.bits.length
      ∧ (storedEntry e).pval = val (e.bits.toList.map (fun c => decide (c = '1')))
      ∧ prefixBits (storedEntry e) = e.bits.toList.map (fun c => decide (c = '1')))
    ∧ ∀ (m : String) (fs : List FieldDesc),
        ((storedEntry ⟨m, "0", fs⟩).pval, (storedEntry ⟨m, "0", fs⟩).plen) = (0, 1)
        ∧ ((storedEntry ⟨m, "00", fs⟩).pval, (storedEntry ⟨m, "00", fs⟩).plen) = (0, 2)
        ∧ ((storedEntry ⟨m, "000", fs⟩).pval, (storedEntry ⟨m, "000", fs⟩).plen) = (0, 3)

/-- In UNLOADED, LOAD of the empty description answers LoadOK with STATUS LOADED and n = 0; and a DECODE of any word
in any LOADED state with n = 0 and no RESET waiting is answered UNKNOWN_OPCODE. -/
def Obligations.EmptyTableLoadsAndDecodesNothing : Prop :=
  (∀ (s : State) (rest : List Request), s.requests = .load [] :: rest → s.status = .unloaded →
      step s = .next { s with
        status := .loaded, n := 0, table := [], dupField := false, requests := rest,
        responses := s.responses ++ [.loadOK] })
    ∧ (∀ (s : State) (seq : Nat) (w : Word) (rest : List Request), s.requests = .decode seq w :: rest →
        s.status = .loaded → s.n = 0 → Request.reset ∉ rest →
        step s = .next { s with requests := rest, responses := s.responses ++ [.decode seq .unknownOpcode] })

/-- In UNLOADED, LOAD(REF31) answers LoadOK with STATUS LOADED, n = 31 and DUP_FIELD 0, for every MAX_ENTRIES of at
least 31; the stored mnemonics, prefix lengths and prefix values are those R140 lists, in its order. -/
def Obligations.Ref31Loads : Prop :=
  (∀ (s : State) (rest : List Request), s.requests = .load ref31 :: rest → s.status = .unloaded →
      step s = .next { s with
        status := .loaded, n := 31, table := ref31Table, dupField := false, requests := rest,
        responses := s.responses ++ [.loadOK] })
    ∧ ref31Table.map (fun e => (e.mnemonic, e.plen, e.pval)) =
        [ ("ADDWF", 6, 9), ("ADDWFC", 6, 8), ("ANDWF", 6, 5), ("CLRF", 7, 53), ("COMF", 6, 7) ]
          ++ [ ("CPFSEQ", 7, 49), ("CPFSGT", 7, 50), ("CPFSLT", 7, 48), ("DECF", 6, 1), ("DECFSZ", 6, 11) ]
          ++ [ ("DCFSNZ", 6, 19), ("INCF", 6, 10), ("INCFSZ", 6, 15), ("INFSNZ", 6, 18), ("IORWF", 6, 4) ]
          ++ [ ("MOVF", 6, 20), ("MOVFF", 4, 12), ("MOVWF", 7, 55), ("MULWF", 7, 1), ("NEGF", 7, 54) ]
          ++ [ ("RLCF", 6, 13), ("RLNCF", 6, 17), ("RRCF", 6, 12), ("RRNCF", 6, 16), ("SETF", 7, 52) ]
          ++ [ ("SUBFWB", 6, 21), ("SUBWF", 6, 23), ("SUBWFB", 6, 22), ("SWAPF", 6, 14), ("TSTFSZ", 7, 51) ]
          ++ [ ("XORWF", 6, 6) ]

/-- From every UNLOADED state with LOAD(D) the oldest request, D sound, and any list of DECODE requests behind it (and
then any requests but RESET), one step more than there are DECODEs answers LoadOK and then each DECODE, in order, with
its tag and the outcome of its word in the table D is stored as; STATUS is LOADED, ERR_CODE and ERR_INDEX are as they
were. That the DECODEs issued behind the LOAD are judged when they are served is the model's choice (assumption 12).
-/
def Obligations.LoadedTableAnswersTheStreamBehindIt : Prop :=
  ∀ (s : State) (d : List EntryDesc) (stream : List (Nat × Word)) (rest : List Request), s.status = .unloaded →
    DescriptionOk Config.maxEntries d → Request.reset ∉ rest →
    s.requests = .load d :: (stream.map (fun p => Request.decode p.1 p.2) ++ rest) →
    Host.Core.run Sys2Proof.core (stream.length + 1) s = .next { s with
      status := .loaded, n := d.length, table := d.map storedEntry, dupField := dupFlag (d.map storedEntry)
      requests := rest
      responses := s.responses ++
        .loadOK :: stream.map (fun p => Response.decode p.1 (decodeOutcome (d.map storedEntry) p.2)) }

/-- When RESET is the oldest request, in any state, the step gives the reset values, keeps the requests behind it and
adds no response. When the oldest request in LOADED is a DECODE and a RESET waits behind it, with any DECODEs and
LOADs between them, the step either serves the first such RESET at once, and then every request before it is gone
without a response, or answers the oldest: the free choice of assumption 2 (the model's own) decides. R210 says only
that unanswered DECODEs issued before a RESET get no response; when that RESET takes effect, and that a LOAD standing
before it is dropped too, is the model's choice (assumption 2). -/
def Obligations.ResetRestoresTheResetValues : Prop :=
  (∀ (s : State) (rest : List Request), s.requests = .reset :: rest →
      step s = .next { s with
        status := .unloaded, n := 0, table := [], errCode := .noError, errIndex := 0, dupField := false,
        requests := rest })
    ∧ (∀ (s : State) (seq : Nat) (w : Word) (waiting rest : List Request), s.status = .loaded →
        Request.reset ∉ waiting → s.requests = .decode seq w :: (waiting ++ .reset :: rest) →
        step s =
          if Config.resetOvertakes s.choices then
            .next { s with
              status := .unloaded, n := 0, table := [], errCode := .noError, errIndex := 0, dupField := false,
              requests := rest, choices := s.choices + 1 }
          else
            .next { s with
              requests := waiting ++ .reset :: rest,
              responses := s.responses ++ [.decode seq (decodeOutcome (s.table.take s.n) w)],
              choices := s.choices + 1 })

/-- State.reset has STATUS UNLOADED, n = 0, an empty table, ERR_CODE 0, ERR_INDEX 0 and DUP_FIELD 0, as the host reads
them; and the block has the same values after a RESET served in any state. -/
def Obligations.ResetStateIsAsStated : Prop :=
  BlockReset State.reset
    ∧ State.reset.readReg .status = 0 ∧ State.reset.readReg .errCode = 0
    ∧ State.reset.readReg .errIndex = 0 ∧ State.reset.readReg .dupField = 0
    ∧ ∀ (s t : State) (rest : List Request), s.requests = .reset :: rest → step s = .next t → BlockReset t

/-- From every LOADED state, a step leaves STATUS, n, T, DUP_FIELD, ERR_CODE and ERR_INDEX unchanged, or a RESET was
among the requests and the six state elements have their reset values. -/
def Obligations.LoadedStateIsLeftOnlyByReset : Prop :=
  ∀ s t : State, s.status = .loaded → step s = .next t →
    SameBlock s t ∨ (Request.reset ∈ s.requests ∧ BlockReset t)

/-- From every MALFORMED state a step either leaves all six state elements and the responses unchanged (a DECODE and a
second LOAD included), or the oldest request was a RESET, the six state elements have their reset values, and a LOAD
of the empty description issued then succeeds. -/
def Obligations.MalformedStateIsLeftOnlyByReset : Prop :=
  ∀ s t : State, s.status = .malformed → step s = .next t →
    (SameBlock s t ∧ t.responses = s.responses)
    ∨ (s.requests.head? = some .reset ∧ BlockReset t
        ∧ ∀ u : State, step { t with requests := [.load []] } = .next u → u.status = .loaded)

/-- State.reset meets the invariant that StepKeepsTheInvariant says every step keeps. -/
def Obligations.InvariantHoldsAtReset : Prop :=
  State.reset.Inv

/-- For every state in which n counts the stored entries and is at most MAX_ENTRIES, every stored entry is well-formed
with unique non-empty mnemonics, a table is held only in LOADED, DUP_FIELD says whether an entry repeats a field name,
ERR_CODE is nonzero exactly in MALFORMED and ERR_INDEX is 0 outside it (and for a size failure), the next state meets
the same. -/
def Obligations.StepKeepsTheInvariant : Prop :=
  ∀ s t : State, s.Inv → step s = .next t → t.Inv

/-- For every state, reachable or not, with any request at the port, step answers a next state: no LOAD, DECODE, RESET
or idle step raises a fault or stops. -/
def Obligations.NoOperationTrapsOrHalts : Prop :=
  ∀ s : State, ∃ t : State, step s = .next t

/-- In every state STATUS reads 0, 1 or 2 for UNLOADED, LOADED and MALFORMED and never 3, ERR_CODE reads 0 to 8 and
never 9 to 15, no two causes share a code, DUP_FIELD reads 0 or 1, and ERR_INDEX reads the recorded index. -/
def Obligations.RegistersReadAsTheirCodes : Prop :=
  (∀ s : State, s.readReg .status ≤ 2 ∧ s.readReg .errCode ≤ 8 ∧ s.readReg .dupField ≤ 1
      ∧ s.readReg .errIndex = s.errIndex
      ∧ (s.readReg .status = 0 ↔ s.status = .unloaded) ∧ (s.readReg .status = 1 ↔ s.status = .loaded)
      ∧ (s.readReg .status = 2 ↔ s.status = .malformed) ∧ (s.readReg .dupField = 1 ↔ s.dupField = true))
    ∧ (∀ c c' : ErrCode, c.code = c'.code → c = c')
    ∧ [ErrCode.noError, .widthSum, .prefixLength, .fieldWidth, .dupMnemonic, .tableTooLarge, .fieldName, .emptyMnemonic,
        .prefixChar].map ErrCode.code = List.range 9

/-- For every well-formed entry, unpacking its representation in 5-bit plen, 16-bit pval, 4-bit nf, 4-bit widths and
name codes gives the entry back, except that a field named by the character of code 0 comes back unnamed, since its
name code is that of the empty name. R22 states both codes; that the two names clash is read from it by inference
(assumption 10). The model's representation has no slots beyond the entry's fields, its own choice (assumption 13). -/
def Obligations.PackedEntryKeepsTheEntry : Prop :=
  ∀ e : Entry, e.wf = true →
    unpackEntry (packEntry e) =
      { e with fields := e.fields.map (fun f => if f.name = some (Char.ofNat 0) then { f with name := none } else f) }

/-- LITTLE gives byte[a] + 256 * byte[a+1] and BIG gives 256 * byte[a] + byte[a+1]; a host value of 65536 or more is
refused at the host boundary, and any other is issued behind the requests already at the port with nothing else
changed. -/
def Obligations.HostFormsAndIssuesWords : Prop :=
  (∀ first second : Byte, (hostWord .little first second).toNat = first.toNat + 256 * second.toNat
      ∧ (hostWord .big first second).toNat = 256 * first.toNat + second.toNat)
    ∧ (∀ (s : State) (seq v : Nat),
        (65536 ≤ v → s.issueDecode seq v = none)
        ∧ (v < 65536 →
            s.issueDecode seq v = some { s with requests := s.requests ++ [.decode seq (BitVec.ofNat 16 v)] }))
end

