-- ==== Sys2Proof/Laws/Load.lean ====
section
/-! SUPPORT. What LOAD's checks accept and what an accepted description is stored as, said once (R93 to R99, R104). -/

namespace Sys2Proof.Laws

open Sys2Proof.Machine

/-- The fields pass exactly when each passes R97 and R98. -/
theorem checkFields_eq_none {fs : List FieldDesc} : checkFields fs = none ↔ ∀ f ∈ fs, FieldDescOk f := by
  induction fs with
  | nil => simp [checkFields]
  | cons f fs ih =>
    simp only [checkFields, List.forall_mem_cons, FieldDescOk]
    split
    · simp only [reduceCtorEq, false_iff]
      omega
    · split
      · simp only [reduceCtorEq, false_iff]
        omega
      · rw [ih]
        simp only [FieldDescOk]
        exact ⟨fun h => ⟨by omega, h⟩, fun h => h.2⟩

/-- An entry passes exactly when it is sound and its mnemonic is new. -/
theorem checkEntry_eq_none {earlier : List String} {e : EntryDesc} :
    checkEntry earlier e = none ↔ EntryDescOk e ∧ e.mnemonic ∉ earlier := by
  unfold checkEntry
  constructor
  · intro h
    split at h
    · simp at h
    split at h
    · simp at h
    split at h
    · simp at h
    split at h
    · simp at h
    rename_i h1 h2 h3 h4
    simp only [Option.or_eq_none_iff, checkFields_eq_none, ite_eq_right_iff, reduceCtorEq, imp_false,
      Decidable.not_not] at h
    refine ⟨⟨fun hm => h1 (by simp [hm]), by omega, by omega, fun c hc => ?_, fun f hf => (h.1 f hf).1,
      fun f hf => (h.1 f hf).2, h.2⟩, h2⟩
    by_contra hn
    exact h4 (List.any_eq_true.mpr ⟨c, hc, by simpa using hn⟩)
  · rintro ⟨⟨hm, hs, hl, hb, hn, hw, hf⟩, hnew⟩
    rw [if_neg (by simpa [String.length_eq_zero_iff] using hm), if_neg hnew, if_neg (by omega), if_neg,
      checkFields_eq_none.mpr fun f h => ⟨hn f h, hw f h⟩]
    · simp [totalWidth, hf]
    · intro h
      obtain ⟨c, hc, h⟩ := List.any_eq_true.mp h
      rcases hb c hc with rfl | rfl <;> simp at h

/-- The entries pass exactly when each is sound and no mnemonic repeats. -/
theorem checkFrom_eq_none {earlier : List String} {i : Nat} {d : List EntryDesc} :
    checkFrom earlier i d = none ↔
      (∀ e ∈ d, EntryDescOk e) ∧ (d.map (·.mnemonic)).Nodup ∧ ∀ e ∈ d, e.mnemonic ∉ earlier := by
  induction d generalizing earlier i with
  | nil => simp [checkFrom]
  | cons e d ih =>
    unfold checkFrom
    split
    · rename_i c h
      simp only [reduceCtorEq, false_iff]
      rintro ⟨h1, _, h3⟩
      rw [checkEntry_eq_none.mpr ⟨h1 e (by simp), h3 e (by simp)⟩] at h
      simp at h
    · rename_i h
      obtain ⟨h1, h2⟩ := checkEntry_eq_none.mp h
      rw [ih]
      simp only [List.forall_mem_cons, List.map_cons, List.nodup_cons, List.mem_append, List.mem_singleton,
        List.mem_map, not_or]
      constructor
      · rintro ⟨a, b, c⟩
        exact ⟨⟨h1, a⟩, ⟨fun ⟨x, hx, he⟩ => (c x hx).2 he, b⟩, h2, fun x hx => (c x hx).1⟩
      · rintro ⟨⟨_, a⟩, ⟨b, c⟩, _, f⟩
        exact ⟨a, c, fun x hx => ⟨f x hx, fun he => b ⟨x, hx, he⟩⟩⟩

/-- LOAD accepts exactly the sound descriptions within the size limit. -/
theorem firstFailure_eq_none {limit : Nat} {d : List EntryDesc} :
    firstFailure limit d = none ↔ DescriptionOk limit d := by
  unfold firstFailure
  split
  · simp only [reduceCtorEq, false_iff]
    intro h
    have := h.size
    omega
  · rw [checkFrom_eq_none]
    exact ⟨fun ⟨a, b, _⟩ => ⟨by omega, a, b⟩, fun ⟨_, b, c⟩ => ⟨b, c, by simp⟩⟩

/-- The value of a string of characters is below the power of two of its length. -/
theorem bitsVal_fold_lt (cs : List Char) (acc : Nat) :
    cs.foldl (fun acc c => 2 * acc + (if c = '1' then 1 else 0)) acc < (acc + 1) * 2 ^ cs.length := by
  induction cs generalizing acc with
  | nil => simp
  | cons c cs ih =>
    simp only [List.foldl_cons, List.length_cons, pow_succ]
    refine Nat.lt_of_lt_of_le (ih _) ?_
    rw [Nat.mul_comm (2 ^ cs.length) 2, ← Nat.mul_assoc]
    refine Nat.mul_le_mul_right _ ?_
    split <;> omega

/-- Positive widths keep their sum, and none exceeds it. -/
theorem widths_toNat {fs : List FieldDesc} (h : ∀ f ∈ fs, 1 ≤ f.width) :
    (((fs.map (fun f => f.width.toNat)).sum : Nat) : Int) = (fs.map (·.width)).sum ∧
      ∀ f ∈ fs, f.width ≤ (fs.map (·.width)).sum := by
  induction fs with
  | nil => simp
  | cons x fs ih =>
    simp only [List.forall_mem_cons] at h
    obtain ⟨h1, h2⟩ := ih h.2
    have hx : (x.width.toNat : Int) = x.width := Int.toNat_of_nonneg (by omega)
    simp only [List.map_cons, List.sum_cons, List.forall_mem_cons, Nat.cast_add, hx, h1, true_and]
    exact ⟨by omega, fun f hf => by have := h2 f hf; omega⟩

/-- A sound entry is stored as a well-formed one (R21). -/
theorem storedEntry_wf {e : EntryDesc} (h : EntryDescOk e) : (storedEntry e).wf = true := by
  obtain ⟨h1, h2⟩ := widths_toNat h.widths
  have hv := bitsVal_fold_lt e.bits.toList 0
  have hs := h.shortest
  have hl := h.longest
  have hf := h.fills
  simp only [Nat.zero_add, Nat.one_mul, String.length_toList] at hv
  simp only [Entry.wf, storedEntry, Entry.widthSum, List.map_map, Function.comp_def, Bool.and_eq_true,
    decide_eq_true_eq, List.all_map, List.all_eq_true]
  refine ⟨⟨⟨⟨decide_eq_true hs, decide_eq_true hl⟩, decide_eq_true hv⟩, fun f hm => ?_⟩, by omega⟩
  have := h2 f hm
  have := h.widths f hm
  omega

end Sys2Proof.Laws
end

