-- ==== Sys2Proof/Laws/Matching.lean ====
section
/-! SUPPORT. What the candidates and the winners of a word are, said once (R112, R115), for every table. -/

namespace Sys2Proof.Laws

open Sys2Proof.Machine

/-- A candidate is an entry that matches, with its index (R112). -/
theorem mem_candidates {t : List Entry} {w : Word} {e : Entry} {i : Nat} :
    (e, i) ∈ candidates t w ↔ t[i]? = some e ∧ matchesWord e w = true := by
  simp [candidates, List.mem_filter, List.mem_zipIdx_iff_getElem?]

/-- The candidates stand in ascending order of index (R112). -/
theorem candidates_ascending (t : List Entry) (w : Word) :
    (candidates t w).Pairwise (fun p q => p.2 < q.2) := by
  apply List.Pairwise.filter
  rw [← List.pairwise_map (f := Prod.snd) (R := (· < ·)), List.zipIdx_map_snd]
  exact List.pairwise_lt_range'

/-- `L` bounds every candidate's length (R115). -/
theorem le_longest {c : List (Entry × Nat)} {p : Entry × Nat} (h : p ∈ c) : p.1.plen ≤ longest c := by
  induction c with
  | nil => simp at h
  | cons q c ih =>
    rcases List.mem_cons.mp h with rfl | h
    · exact Nat.le_max_left _ _
    · exact Nat.le_trans (ih h) (Nat.le_max_right _ _)

/-- `L` is some candidate's length, if there is a candidate (R115). -/
theorem exists_longest {c : List (Entry × Nat)} (h : c ≠ []) : ∃ p ∈ c, p.1.plen = longest c := by
  induction c with
  | nil => exact absurd rfl h
  | cons q c ih =>
    by_cases hc : c = []
    · subst hc
      exact ⟨q, by simp, by simp [longest]⟩
    · obtain ⟨p, hp, hl⟩ := ih hc
      rcases Nat.le_total (longest c) q.1.plen with h | h
      · exact ⟨q, by simp, by simp [longest, h]⟩
      · exact ⟨p, by simp [hp], by simp [longest, h, hl]⟩

/-- A winner is a matching entry of the greatest matching length (R115). -/
theorem mem_winners {t : List Entry} {w : Word} {e : Entry} {i : Nat} :
    (e, i) ∈ winners (candidates t w) ↔
      t[i]? = some e ∧ matchesWord e w = true ∧
        ∀ (j : Nat) (e' : Entry), t[j]? = some e' → matchesWord e' w = true → e'.plen ≤ e.plen := by
  simp only [winners, List.mem_filter, beq_iff_eq, mem_candidates, and_assoc]
  refine and_congr_right fun hi => and_congr_right fun hm => ⟨fun h j e' hj hm' => ?_, fun h => ?_⟩
  · rw [h]
    exact le_longest (p := (e', j)) (mem_candidates.mpr ⟨hj, hm'⟩)
  · have hc : (e, i) ∈ candidates t w := mem_candidates.mpr ⟨hi, hm⟩
    obtain ⟨⟨e', j⟩, hp, hl⟩ := exists_longest (List.ne_nil_of_mem hc)
    obtain ⟨hj, hm'⟩ := mem_candidates.mp hp
    exact Nat.le_antisymm (le_longest hc) (hl ▸ h j e' hj hm')

/-- The winners stand in ascending order of index (R115). -/
theorem winners_ascending (t : List Entry) (w : Word) :
    (winners (candidates t w)).Pairwise (fun p q => p.2 < q.2) :=
  (candidates_ascending t w).filter _

/-- There is a winner as soon as there is a candidate. -/
theorem winners_eq_nil {c : List (Entry × Nat)} : winners c = [] ↔ c = [] := by
  refine ⟨fun h => ?_, fun h => by simp [h, winners]⟩
  by_contra hc
  obtain ⟨p, hp, hl⟩ := exists_longest hc
  exact List.ne_nil_of_mem (List.mem_filter.mpr ⟨hp, by simpa using hl⟩) h

/-- All that DECODE's answer can be (R116, R117, R118). -/
theorem decodeOutcome_cases (t : List Entry) (w : Word) :
    (candidates t w = [] ∧ decodeOutcome t w = .unknownOpcode) ∨
    (∃ e i, winners (candidates t w) = [(e, i)] ∧
      decodeOutcome t w = .decoded i e.mnemonic (rawFields e w) (fieldMap e w)) ∨
    (2 ≤ (winners (candidates t w)).length ∧
      decodeOutcome t w = .ambiguousEncoding ((winners (candidates t w)).map (·.2))) := by
  unfold decodeOutcome
  split
  · exact .inl ⟨winners_eq_nil.mp (by assumption), rfl⟩
  · rename_i p h
    exact .inr (.inl ⟨p.1, p.2, h, rfl⟩)
  · rename_i h0 h1
    refine .inr (.inr ⟨?_, rfl⟩)
    match hw : winners (candidates t w) with
    | [] => exact absurd hw h0
    | [p] => exact absurd hw (h1 p)
    | _ :: _ :: _ => simp

end Sys2Proof.Laws
end

