-- ==== Sys2Proof/Laws/Words.lean ====
section
/-! SUPPORT. The arithmetic of words and slices: bounds, what the packers of the encoder are, and that the words the
meanings write from a rule's `match` value are the encoder's. -/

namespace Sys2Proof.Laws

open Sys2Proof.Machine

theorem slice_lt (w : Word) (hi lo : Nat) : slice w hi lo < 2 ^ (hi - lo + 1) := by
  unfold slice
  exact Nat.mod_lt _ (Nat.two_pow_pos _)

theorem bit_le (b : BitVec 1) : b.toNat ≤ 1 := by
  have := b.isLt
  omega

theorem packFda_toNat {p : Nat} (hp : p < 64) (d a : BitVec 1) (f : BitVec 8) :
    (packFda p d a f).toNat = p * 1024 + d.toNat * 512 + a.toNat * 256 + f.toNat := by
  have := bit_le d
  have := bit_le a
  have := f.isLt
  simp only [packFda, BitVec.toNat_ofNat]
  omega

theorem packFa_toNat {p : Nat} (hp : p < 128) (a : BitVec 1) (f : BitVec 8) :
    (packFa p a f).toNat = p * 512 + a.toNat * 256 + f.toNat := by
  have := bit_le a
  have := f.isLt
  simp only [packFa, BitVec.toNat_ofNat]
  omega

theorem packF12_toNat {p : Nat} (hp : p < 16) (s : BitVec 12) : (packF12 p s).toNat = p * 4096 + s.toNat := by
  have := s.isLt
  simp only [packF12, BitVec.toNat_ofNat]
  omega

/-- The `match` value of an FDA entry is its prefix followed by ten zero bits (R63, R64). -/
theorem wordFda_eq_packFda {m p : Nat} (h : m = p * 1024) (d a : BitVec 1) (f : BitVec 8) :
    wordFda m d a f = packFda p d a f :=
  congrArg (BitVec.ofNat 16) (by omega)

/-- The `match` value of an FA entry is its prefix followed by nine zero bits (R63, R65). -/
theorem wordFa_eq_packFa {m p : Nat} (h : m = p * 512) (a : BitVec 1) (f : BitVec 8) :
    wordFa m a f = packFa p a f :=
  congrArg (BitVec.ofNat 16) (by omega)

/-- The `match` value of the F12 entry is its prefix followed by twelve zero bits (R63, R66). -/
theorem wordF12_eq_packF12 {m p : Nat} (h : m = p * 4096) (s : BitVec 12) : wordF12 m s = packF12 p s :=
  congrArg (BitVec.ofNat 16) (by omega)

/-- The bytes a host lays a word out in, in its byte order, give the word back (R43). -/
theorem hostWord_little (w : Word) :
    hostWord .little (BitVec.ofNat 8 w.toNat) (BitVec.ofNat 8 (w.toNat / 256)) = w := by
  have := w.isLt
  apply BitVec.eq_of_toNat_eq
  simp only [hostWord, BitVec.toNat_ofNat, Nat.reducePow]
  omega

theorem hostWord_big (w : Word) :
    hostWord .big (BitVec.ofNat 8 (w.toNat / 256)) (BitVec.ofNat 8 w.toNat) = w := by
  have := w.isLt
  apply BitVec.eq_of_toNat_eq
  simp only [hostWord, BitVec.toNat_ofNat, Nat.reducePow]
  omega

end Sys2Proof.Laws
end

