-- ==== Sys2Proof/Laws/PerInstr.lean ====
section
/-! SUPPORT. Facts about every instruction as a term, one lemma per constructor.
LeadingBits: the leading bits of an instruction's word are the prefix that REF31 stores for its row (R60, R140). -/

/-- The row of REF31 an instruction stands for has its word's leading bits as its prefix. -/
def Sys2Proof.Laws.LeadingBits.Statement (i : Sys2Proof.Instr) : Prop :=
  ∃ e, Sys2Proof.Machine.ref31Table[i.index]? = some e ∧
    Sys2Proof.slice (Sys2Proof.encode i) 15 (16 - e.plen) = e.pval

namespace Sys2Proof.Laws

theorem fda_leadingBits {p : Nat} (hp : p < 64) (d a : BitVec 1) (f : BitVec 8) :
    slice (packFda p d a f) 15 10 = p := by
  have := bit_le d
  have := bit_le a
  have := f.isLt
  rw [slice, packFda_toNat hp]
  omega

theorem fa_leadingBits {p : Nat} (hp : p < 128) (a : BitVec 1) (f : BitVec 8) : slice (packFa p a f) 15 9 = p := by
  have := bit_le a
  have := f.isLt
  rw [slice, packFa_toNat hp]
  omega

theorem f12_leadingBits {p : Nat} (hp : p < 16) (s : BitVec 12) : slice (packF12 p s) 15 12 = p := by
  have := s.isLt
  rw [slice, packF12_toNat hp]
  omega

end Sys2Proof.Laws

namespace Sys2Proof.Laws.LeadingBits

theorem addwf (d a : BitVec 1) (f : BitVec 8) : Statement (.addwf d a f) :=
  ⟨_, rfl, fda_leadingBits (by decide) d a f⟩

theorem addwfc (d a : BitVec 1) (f : BitVec 8) : Statement (.addwfc d a f) :=
  ⟨_, rfl, fda_leadingBits (by decide) d a f⟩

theorem andwf (d a : BitVec 1) (f : BitVec 8) : Statement (.andwf d a f) :=
  ⟨_, rfl, fda_leadingBits (by decide) d a f⟩

theorem clrf (a : BitVec 1) (f : BitVec 8) : Statement (.clrf a f) :=
  ⟨_, rfl, fa_leadingBits (by decide) a f⟩

theorem comf (d a : BitVec 1) (f : BitVec 8) : Statement (.comf d a f) :=
  ⟨_, rfl, fda_leadingBits (by decide) d a f⟩

theorem cpfseq (a : BitVec 1) (f : BitVec 8) : Statement (.cpfseq a f) :=
  ⟨_, rfl, fa_leadingBits (by decide) a f⟩

theorem cpfsgt (a : BitVec 1) (f : BitVec 8) : Statement (.cpfsgt a f) :=
  ⟨_, rfl, fa_leadingBits (by decide) a f⟩

theorem cpfslt (a : BitVec 1) (f : BitVec 8) : Statement (.cpfslt a f) :=
  ⟨_, rfl, fa_leadingBits (by decide) a f⟩

theorem decf (d a : BitVec 1) (f : BitVec 8) : Statement (.decf d a f) :=
  ⟨_, rfl, fda_leadingBits (by decide) d a f⟩

theorem decfsz (d a : BitVec 1) (f : BitVec 8) : Statement (.decfsz d a f) :=
  ⟨_, rfl, fda_leadingBits (by decide) d a f⟩

theorem dcfsnz (d a : BitVec 1) (f : BitVec 8) : Statement (.dcfsnz d a f) :=
  ⟨_, rfl, fda_leadingBits (by decide) d a f⟩

theorem incf (d a : BitVec 1) (f : BitVec 8) : Statement (.incf d a f) :=
  ⟨_, rfl, fda_leadingBits (by decide) d a f⟩

theorem incfsz (d a : BitVec 1) (f : BitVec 8) : Statement (.incfsz d a f) :=
  ⟨_, rfl, fda_leadingBits (by decide) d a f⟩

theorem infsnz (d a : BitVec 1) (f : BitVec 8) : Statement (.infsnz d a f) :=
  ⟨_, rfl, fda_leadingBits (by decide) d a f⟩

theorem iorwf (d a : BitVec 1) (f : BitVec 8) : Statement (.iorwf d a f) :=
  ⟨_, rfl, fda_leadingBits (by decide) d a f⟩

theorem movf (d a : BitVec 1) (f : BitVec 8) : Statement (.movf d a f) :=
  ⟨_, rfl, fda_leadingBits (by decide) d a f⟩

theorem movff (s : BitVec 12) : Statement (.movff s) :=
  ⟨_, rfl, f12_leadingBits (by decide) s⟩

theorem movwf (a : BitVec 1) (f : BitVec 8) : Statement (.movwf a f) :=
  ⟨_, rfl, fa_leadingBits (by decide) a f⟩

theorem mulwf (a : BitVec 1) (f : BitVec 8) : Statement (.mulwf a f) :=
  ⟨_, rfl, fa_leadingBits (by decide) a f⟩

theorem negf (a : BitVec 1) (f : BitVec 8) : Statement (.negf a f) :=
  ⟨_, rfl, fa_leadingBits (by decide) a f⟩

theorem rlcf (d a : BitVec 1) (f : BitVec 8) : Statement (.rlcf d a f) :=
  ⟨_, rfl, fda_leadingBits (by decide) d a f⟩

theorem rlncf (d a : BitVec 1) (f : BitVec 8) : Statement (.rlncf d a f) :=
  ⟨_, rfl, fda_leadingBits (by decide) d a f⟩

theorem rrcf (d a : BitVec 1) (f : BitVec 8) : Statement (.rrcf d a f) :=
  ⟨_, rfl, fda_leadingBits (by decide) d a f⟩

theorem rrncf (d a : BitVec 1) (f : BitVec 8) : Statement (.rrncf d a f) :=
  ⟨_, rfl, fda_leadingBits (by decide) d a f⟩

theorem setf (a : BitVec 1) (f : BitVec 8) : Statement (.setf a f) :=
  ⟨_, rfl, fa_leadingBits (by decide) a f⟩

theorem subfwb (d a : BitVec 1) (f : BitVec 8) : Statement (.subfwb d a f) :=
  ⟨_, rfl, fda_leadingBits (by decide) d a f⟩

theorem subwf (d a : BitVec 1) (f : BitVec 8) : Statement (.subwf d a f) :=
  ⟨_, rfl, fda_leadingBits (by decide) d a f⟩

theorem subwfb (d a : BitVec 1) (f : BitVec 8) : Statement (.subwfb d a f) :=
  ⟨_, rfl, fda_leadingBits (by decide) d a f⟩

theorem swapf (d a : BitVec 1) (f : BitVec 8) : Statement (.swapf d a f) :=
  ⟨_, rfl, fda_leadingBits (by decide) d a f⟩

theorem tstfsz (a : BitVec 1) (f : BitVec 8) : Statement (.tstfsz a f) :=
  ⟨_, rfl, fa_leadingBits (by decide) a f⟩

theorem xorwf (d a : BitVec 1) (f : BitVec 8) : Statement (.xorwf d a f) :=
  ⟨_, rfl, fda_leadingBits (by decide) d a f⟩

end Sys2Proof.Laws.LeadingBits
end

