-- ==== Sys2Proof/Laws/State.lean ====
section
/-! SUPPORT. One lemma per field per update of the state, each true by rfl, so that no proof unfolds a record update. -/

namespace Sys2Proof.Laws

open Sys2Proof.Machine

@[simp] theorem finish_status (s : State) (a : Option Response) : (s.finish a).status = s.status := rfl
@[simp] theorem finish_n (s : State) (a : Option Response) : (s.finish a).n = s.n := rfl
@[simp] theorem finish_table (s : State) (a : Option Response) : (s.finish a).table = s.table := rfl
@[simp] theorem finish_errCode (s : State) (a : Option Response) : (s.finish a).errCode = s.errCode := rfl
@[simp] theorem finish_errIndex (s : State) (a : Option Response) : (s.finish a).errIndex = s.errIndex := rfl
@[simp] theorem finish_dupField (s : State) (a : Option Response) : (s.finish a).dupField = s.dupField := rfl
@[simp] theorem finish_requests (s : State) (a : Option Response) : (s.finish a).requests = s.requests.tail := rfl
@[simp] theorem finish_responses (s : State) (a : Option Response) : (s.finish a).responses = s.responses ++ a.toList := rfl
@[simp] theorem finish_choices (s : State) (a : Option Response) : (s.finish a).choices = s.choices := rfl

@[simp] theorem issue_status (s : State) (r : Request) : (s.issue r).status = s.status := rfl
@[simp] theorem issue_n (s : State) (r : Request) : (s.issue r).n = s.n := rfl
@[simp] theorem issue_table (s : State) (r : Request) : (s.issue r).table = s.table := rfl
@[simp] theorem issue_errCode (s : State) (r : Request) : (s.issue r).errCode = s.errCode := rfl
@[simp] theorem issue_errIndex (s : State) (r : Request) : (s.issue r).errIndex = s.errIndex := rfl
@[simp] theorem issue_dupField (s : State) (r : Request) : (s.issue r).dupField = s.dupField := rfl
@[simp] theorem issue_requests (s : State) (r : Request) : (s.issue r).requests = s.requests ++ [r] := rfl
@[simp] theorem issue_responses (s : State) (r : Request) : (s.issue r).responses = s.responses := rfl
@[simp] theorem issue_choices (s : State) (r : Request) : (s.issue r).choices = s.choices := rfl

@[simp] theorem resetBlock_status (s : State) : (s.resetBlock).status = .unloaded := rfl
@[simp] theorem resetBlock_n (s : State) : (s.resetBlock).n = 0 := rfl
@[simp] theorem resetBlock_table (s : State) : (s.resetBlock).table = [] := rfl
@[simp] theorem resetBlock_errCode (s : State) : (s.resetBlock).errCode = .noError := rfl
@[simp] theorem resetBlock_errIndex (s : State) : (s.resetBlock).errIndex = 0 := rfl
@[simp] theorem resetBlock_dupField (s : State) : (s.resetBlock).dupField = false := rfl
@[simp] theorem resetBlock_requests (s : State) : (s.resetBlock).requests = s.requests := rfl
@[simp] theorem resetBlock_responses (s : State) : (s.resetBlock).responses = s.responses := rfl
@[simp] theorem resetBlock_choices (s : State) : (s.resetBlock).choices = s.choices := rfl

@[simp] theorem rejectTable_status (s : State) (c : ErrCode) (i : Nat) : (s.rejectTable c i).status = .malformed := rfl
@[simp] theorem rejectTable_n (s : State) (c : ErrCode) (i : Nat) : (s.rejectTable c i).n = 0 := rfl
@[simp] theorem rejectTable_table (s : State) (c : ErrCode) (i : Nat) : (s.rejectTable c i).table = [] := rfl
@[simp] theorem rejectTable_errCode (s : State) (c : ErrCode) (i : Nat) : (s.rejectTable c i).errCode = c := rfl
@[simp] theorem rejectTable_errIndex (s : State) (c : ErrCode) (i : Nat) : (s.rejectTable c i).errIndex = i := rfl
@[simp] theorem rejectTable_dupField (s : State) (c : ErrCode) (i : Nat) : (s.rejectTable c i).dupField = false := rfl
@[simp] theorem rejectTable_requests (s : State) (c : ErrCode) (i : Nat) : (s.rejectTable c i).requests = s.requests := rfl
@[simp] theorem rejectTable_responses (s : State) (c : ErrCode) (i : Nat) : (s.rejectTable c i).responses = s.responses := rfl
@[simp] theorem rejectTable_choices (s : State) (c : ErrCode) (i : Nat) : (s.rejectTable c i).choices = s.choices := rfl

@[simp] theorem storeTable_status (s : State) (d : List EntryDesc) : (s.storeTable d).status = .loaded := rfl
@[simp] theorem storeTable_n (s : State) (d : List EntryDesc) : (s.storeTable d).n = d.length := rfl
@[simp] theorem storeTable_table (s : State) (d : List EntryDesc) : (s.storeTable d).table = d.map storedEntry := rfl
@[simp] theorem storeTable_errCode (s : State) (d : List EntryDesc) : (s.storeTable d).errCode = s.errCode := rfl
@[simp] theorem storeTable_errIndex (s : State) (d : List EntryDesc) : (s.storeTable d).errIndex = s.errIndex := rfl
@[simp] theorem storeTable_dupField (s : State) (d : List EntryDesc) : (s.storeTable d).dupField = dupFlag (d.map storedEntry) := rfl
@[simp] theorem storeTable_requests (s : State) (d : List EntryDesc) : (s.storeTable d).requests = s.requests := rfl
@[simp] theorem storeTable_responses (s : State) (d : List EntryDesc) : (s.storeTable d).responses = s.responses := rfl
@[simp] theorem storeTable_choices (s : State) (d : List EntryDesc) : (s.storeTable d).choices = s.choices := rfl

@[simp] theorem countChoice_status (s : State) : (s.countChoice).status = s.status := rfl
@[simp] theorem countChoice_n (s : State) : (s.countChoice).n = s.n := rfl
@[simp] theorem countChoice_table (s : State) : (s.countChoice).table = s.table := rfl
@[simp] theorem countChoice_errCode (s : State) : (s.countChoice).errCode = s.errCode := rfl
@[simp] theorem countChoice_errIndex (s : State) : (s.countChoice).errIndex = s.errIndex := rfl
@[simp] theorem countChoice_dupField (s : State) : (s.countChoice).dupField = s.dupField := rfl
@[simp] theorem countChoice_requests (s : State) : (s.countChoice).requests = s.requests := rfl
@[simp] theorem countChoice_responses (s : State) : (s.countChoice).responses = s.responses := rfl
@[simp] theorem countChoice_choices (s : State) : (s.countChoice).choices = s.choices + 1 := rfl

@[simp] theorem execReset_status (s : State) : (execReset s).status = .unloaded := rfl
@[simp] theorem execReset_n (s : State) : (execReset s).n = 0 := rfl
@[simp] theorem execReset_table (s : State) : (execReset s).table = [] := rfl
@[simp] theorem execReset_errCode (s : State) : (execReset s).errCode = .noError := rfl
@[simp] theorem execReset_errIndex (s : State) : (execReset s).errIndex = 0 := rfl
@[simp] theorem execReset_dupField (s : State) : (execReset s).dupField = false := rfl
@[simp] theorem execReset_requests (s : State) : (execReset s).requests = afterReset s.requests := rfl
@[simp] theorem execReset_responses (s : State) : (execReset s).responses = s.responses := rfl
@[simp] theorem execReset_choices (s : State) : (execReset s).choices = s.choices := rfl

/-- What `withFetchWord` leaves at the port and in the block. -/
@[simp] theorem withFetchWord_status (s : State) (nbits w : Nat) : (s.withFetchWord nbits w).status = .loaded := rfl
@[simp] theorem withFetchWord_n (s : State) (nbits w : Nat) : (s.withFetchWord nbits w).n = 31 := rfl
@[simp] theorem withFetchWord_table (s : State) (nbits w : Nat) : (s.withFetchWord nbits w).table = ref31Table := rfl
@[simp] theorem withFetchWord_requests (s : State) (nbits w : Nat) :
    (s.withFetchWord nbits w).requests =
      .decode 0 (BitVec.ofNat 16 (w % 2 ^ nbits)) :: s.requests.filter (fun r => decide (r ≠ Request.reset)) := rfl
@[simp] theorem withFetchWord_responses (s : State) (nbits w : Nat) :
    (s.withFetchWord nbits w).responses = s.responses := rfl

end Sys2Proof.Laws
end

