-- ==== Sys2Proof/Laws/Port.lean ====
section
/-! SUPPORT. What each operation of the port and each request can do to the state, said once: DECODE, LOAD, RESET, and the
inversion of a step. -/

namespace Sys2Proof.Laws

open Sys2Proof.Machine

/-! ### The RESET that waits -/

theorem resetWaits_iff (rs : List Request) : resetWaits rs = true ↔ Request.reset ∈ rs := by
  simp [resetWaits]

@[simp] theorem resetWaits_decode (seq : Nat) (w : Word) (rs : List Request) :
    resetWaits (.decode seq w :: rs) = resetWaits rs := by
  simp [resetWaits]

/-- Every request before the first RESET is dropped with it. -/
theorem afterReset_append_reset {waiting : List Request} (rest : List Request) (h : Request.reset ∉ waiting) :
    afterReset (waiting ++ .reset :: rest) = rest := by
  induction waiting with
  | nil => rfl
  | cons r waiting ih =>
    simp only [List.mem_cons, not_or] at h
    cases r with
    | reset => exact absurd rfl h.1
    | load _ => exact ih h.2
    | decode _ _ => exact ih h.2

/-! ### DECODE -/

/-- An accepted DECODE is answered from the live table (R110, R119). -/
theorem decodeRequest_loaded {s : State} {seq : Nat} {v : Word} {rest : List Request} (w : Word)
    (hs : s.status = .loaded) (hr : s.requests = .decode seq v :: rest) :
    decodeRequest w s = s.finish (some (.decode seq (decodeOutcome s.liveTable w))) := by
  simp [decodeRequest, hs, hr]

/-- A DECODE outside LOADED is refused (R110). -/
theorem decodeRequest_refused {s : State} {seq : Nat} {v : Word} {rest : List Request} (w : Word)
    (hs : s.status ≠ .loaded) (hr : s.requests = .decode seq v :: rest) :
    decodeRequest w s = s.finish none := by
  cases h : s.status <;> simp_all [decodeRequest]

/-- All a DECODE can do: nothing, or the oldest request leaves with at most one response (R121). -/
theorem decodeRequest_cases (w : Word) (s : State) :
    decodeRequest w s = s ∨ ∃ a : Option Response, decodeRequest w s = s.finish a := by
  unfold decodeRequest
  split
  · split
    · exact .inr ⟨_, rfl⟩
    · exact .inr ⟨_, rfl⟩
  · exact .inl rfl

/-! ### LOAD -/

/-- All a LOAD can do (R103, R104). -/
theorem execLoad_cases (limit : Nat) (d : List EntryDesc) (s : State) :
    (s.status ≠ .unloaded ∧ execLoad limit d s = s.finish none) ∨
    (∃ c i, s.status = .unloaded ∧ firstFailure limit d = some (c, i) ∧
      execLoad limit d s = (s.rejectTable c i).finish (some (.loadFailed c i))) ∨
    (s.status = .unloaded ∧ firstFailure limit d = none ∧
      execLoad limit d s = (s.storeTable d).finish (some .loadOK)) := by
  unfold execLoad
  split
  · rename_i hs
    split
    · rename_i c i h
      exact .inr (.inl ⟨c, i, hs, h, rfl⟩)
    · rename_i h
      exact .inr (.inr ⟨hs, h, rfl⟩)
  · rename_i hs
    exact .inl ⟨hs, rfl⟩

/-! ### Instructions -/

/-- The word every meaning writes from its rule's `match` value is the encoder's word: every instruction is the
block's one DECODE of its own encoding (R9, R119). -/
theorem exec_eq_decodeRequest (i : Instr) (s : State) : exec i s = .next (decodeRequest (encode i) s) := by
  have fda {m p : Nat} (h : m = p * 1024) (d a : BitVec 1) (f : BitVec 8) :
      (Host.Outcome.next (decodeRequest (wordFda m d a f) s) : Host.Outcome State Fault Refusal) =
        .next (decodeRequest (packFda p d a f) s) := by
    rw [wordFda_eq_packFda h]
  have fa {m p : Nat} (h : m = p * 512) (a : BitVec 1) (f : BitVec 8) :
      (Host.Outcome.next (decodeRequest (wordFa m a f) s) : Host.Outcome State Fault Refusal) =
        .next (decodeRequest (packFa p a f) s) := by
    rw [wordFa_eq_packFa h]
  have f12 {m p : Nat} (h : m = p * 4096) (src : BitVec 12) :
      (Host.Outcome.next (decodeRequest (wordF12 m src) s) : Host.Outcome State Fault Refusal) =
        .next (decodeRequest (packF12 p src) s) := by
    rw [wordF12_eq_packF12 h]
  cases i with
  | addwf d a f => exact fda (m := 0x2400) (p := 0b001001) (by decide) d a f
  | addwfc d a f => exact fda (m := 0x2000) (p := 0b001000) (by decide) d a f
  | andwf d a f => exact fda (m := 0x1400) (p := 0b000101) (by decide) d a f
  | clrf a f => exact fa (m := 0x6A00) (p := 0b0110101) (by decide) a f
  | comf d a f => exact fda (m := 0x1C00) (p := 0b000111) (by decide) d a f
  | cpfseq a f => exact fa (m := 0x6200) (p := 0b0110001) (by decide) a f
  | cpfsgt a f => exact fa (m := 0x6400) (p := 0b0110010) (by decide) a f
  | cpfslt a f => exact fa (m := 0x6000) (p := 0b0110000) (by decide) a f
  | decf d a f => exact fda (m := 0x0400) (p := 0b000001) (by decide) d a f
  | decfsz d a f => exact fda (m := 0x2C00) (p := 0b001011) (by decide) d a f
  | dcfsnz d a f => exact fda (m := 0x4C00) (p := 0b010011) (by decide) d a f
  | incf d a f => exact fda (m := 0x2800) (p := 0b001010) (by decide) d a f
  | incfsz d a f => exact fda (m := 0x3C00) (p := 0b001111) (by decide) d a f
  | infsnz d a f => exact fda (m := 0x4800) (p := 0b010010) (by decide) d a f
  | iorwf d a f => exact fda (m := 0x1000) (p := 0b000100) (by decide) d a f
  | movf d a f => exact fda (m := 0x5000) (p := 0b010100) (by decide) d a f
  | movff src => exact f12 (m := 0xC000) (p := 0b1100) (by decide) src
  | movwf a f => exact fa (m := 0x6E00) (p := 0b0110111) (by decide) a f
  | mulwf a f => exact fa (m := 0x0200) (p := 0b0000001) (by decide) a f
  | negf a f => exact fa (m := 0x6C00) (p := 0b0110110) (by decide) a f
  | rlcf d a f => exact fda (m := 0x3400) (p := 0b001101) (by decide) d a f
  | rlncf d a f => exact fda (m := 0x4400) (p := 0b010001) (by decide) d a f
  | rrcf d a f => exact fda (m := 0x3000) (p := 0b001100) (by decide) d a f
  | rrncf d a f => exact fda (m := 0x4000) (p := 0b010000) (by decide) d a f
  | setf a f => exact fa (m := 0x6800) (p := 0b0110100) (by decide) a f
  | subfwb d a f => exact fda (m := 0x5400) (p := 0b010101) (by decide) d a f
  | subwf d a f => exact fda (m := 0x5C00) (p := 0b010111) (by decide) d a f
  | subwfb d a f => exact fda (m := 0x5800) (p := 0b010110) (by decide) d a f
  | swapf d a f => exact fda (m := 0x3800) (p := 0b001110) (by decide) d a f
  | tstfsz a f => exact fa (m := 0x6600) (p := 0b0110011) (by decide) a f
  | xorwf d a f => exact fda (m := 0x1800) (p := 0b000110) (by decide) d a f

/-- Serving the word of a DECODE request is one DECODE, whether or not the word is an instruction of REF31. -/
theorem runWord_is_decodeRequest (w : Word) : ∃ v : Word, ∀ s : State, runWord w s = .next (decodeRequest v s) := by
  unfold runWord
  split
  · exact ⟨_, exec_eq_decodeRequest _⟩
  · exact ⟨w, fun _ => rfl⟩

/-! ### A step -/

/-- All a step can do: nothing, RESET, LOAD, or DECODE with the free choice of a waiting RESET counted or not. -/
theorem step_cases (s : State) :
    (s.requests = [] ∧ step s = .next s) ∨
    (∃ rest, s.requests = .reset :: rest ∧ step s = .next (execReset s)) ∨
    (∃ d rest, s.requests = .load d :: rest ∧ step s = .next (execLoad Config.maxEntries d s)) ∨
    (∃ seq w rest v, s.requests = .decode seq w :: rest ∧
      (step s = .next (decodeRequest v s) ∨
       (s.status = .loaded ∧ Request.reset ∈ rest ∧
        (step s = .next (execReset s.countChoice) ∨ step s = .next (decodeRequest v s.countChoice))))) := by
  unfold step
  split
  · exact .inl ⟨by assumption, rfl⟩
  · exact .inr (.inl ⟨_, by assumption, rfl⟩)
  · exact .inr (.inr (.inl ⟨_, _, by assumption, rfl⟩))
  · rename_i seq w rest hr
    obtain ⟨v, hv⟩ := runWord_is_decodeRequest w
    refine .inr (.inr (.inr ⟨seq, w, rest, v, hr, ?_⟩))
    unfold serveDecode
    split
    · rename_i ho
      have hstat : s.status = .loaded ∧ Request.reset ∈ rest := by
        simpa [State.resetChoiceOpen, hr, resetWaits_iff] using ho
      refine .inr ⟨hstat.1, hstat.2, ?_⟩
      split
      · exact .inl rfl
      · exact .inr (hv _)
    · exact .inl (hv s)

end Sys2Proof.Laws
end

