-- ==== Sys2Proof/Tests/Slice0.lean ====
section
/-! SUPPORT. The model's own tests. Expected results are the spec's: the worked examples of 42_reference_table.md and the
vectors of 95_test_vectors.md, each named by its id. Each is one operation or one step. -/

namespace Sys2Proof.Tests

open Sys2Proof.Machine

/-- A state of the block with a status, a table and requests at the port. -/
def mk (st : Status) (t : List Entry) (rs : List Request) : State :=
  { State.reset with status := st, n := t.length, table := t, dupField := dupFlag t, requests := rs }

/-- The next state of an outcome, if there is one. -/
def nextOf (o : Host.Outcome State Fault Refusal) : Option State :=
  match o with
  | .next s => some s
  | .fault _ => none
  | .refused _ => none

/-- The responses of an outcome's next state. -/
def answers (o : Host.Outcome State Fault Refusal) : Option (List Response) := (nextOf o).map (·.responses)

/-! ### WellFormed: each check refuses an ill-formed term -/

def good : Entry := ⟨"X", 4, 5, [⟨some 'a', 4⟩, ⟨none, 8⟩]⟩

theorem test_wf_accepts : good.wf = true := by decide
theorem test_wf_refuses_empty_prefix : Entry.wf ⟨"X", 0, 0, [⟨some 'a', 8⟩, ⟨some 'b', 8⟩]⟩ = false := by decide
theorem test_wf_refuses_long_prefix : Entry.wf ⟨"X", 17, 0, []⟩ = false := by decide
theorem test_wf_refuses_wide_prefix_value : Entry.wf ⟨"X", 4, 16, [⟨some 'a', 12⟩]⟩ = false := by decide
theorem test_wf_refuses_zero_width : Entry.wf ⟨"X", 4, 5, [⟨some 'a', 0⟩, ⟨some 'b', 12⟩]⟩ = false := by decide
theorem test_wf_refuses_sixteen_bit_field : Entry.wf ⟨"X", 1, 0, [⟨some 'a', 16⟩]⟩ = false := by decide
theorem test_wf_refuses_short_sum : Entry.wf ⟨"X", 4, 5, [⟨some 'a', 8⟩]⟩ = false := by decide
theorem test_table_wf_accepts : Table.wf [good, ⟨"Y", 16, 7, []⟩] = true := by decide
theorem test_table_wf_refuses_bad_entry : Table.wf [good, ⟨"Y", 17, 7, []⟩] = false := by decide
theorem test_table_wf_refuses_empty_mnemonic : Table.wf [⟨"", 16, 7, []⟩] = false := by decide
theorem test_table_wf_refuses_repeated_mnemonic : Table.wf [good, ⟨"X", 16, 7, []⟩] = false := by decide

/-! ### Decoding: every constructor, from a word written out bit by bit (the worked examples of R142 to R172) -/

theorem test_decode_arithmetic :
    [0b0010011001011010, 0b0010001001011010, 0b0000011001011010, 0b0010101001011010,
      0b0000001111000011, 0b0110110111000011, 0b0101011001011010, 0b0101111001011010,
      0b0101101001011010].map (decodeTableWord 16) =
      [some (.addwf 1 0 90), some (.addwfc 1 0 90), some (.decf 1 0 90),
        some (.incf 1 0 90), some (.mulwf 1 195), some (.negf 1 195),
        some (.subfwb 1 0 90), some (.subwf 1 0 90), some (.subwfb 1 0 90)] := by decide

theorem test_decode_logic :
    [0b0001011001011010, 0b0110101111000011, 0b0001111001011010, 0b0001001001011010,
      0b0110100111000011, 0b0011101001011010, 0b0001101001011010].map (decodeTableWord 16) =
      [some (.andwf 1 0 90), some (.clrf 1 195), some (.comf 1 0 90),
        some (.iorwf 1 0 90), some (.setf 1 195), some (.swapf 1 0 90),
        some (.xorwf 1 0 90)] := by decide

theorem test_decode_rotate :
    [0b0011011001011010, 0b0100011001011010, 0b0011001001011010, 0b0100001001011010].map (decodeTableWord 16) =
      [some (.rlcf 1 0 90), some (.rlncf 1 0 90), some (.rrcf 1 0 90),
        some (.rrncf 1 0 90)] := by decide

theorem test_decode_skip :
    [0b0110001111000011, 0b0110010111000011, 0b0110000111000011, 0b0010111001011010,
      0b0100111001011010, 0b0011111001011010, 0b0100101001011010, 0b0110011111000011].map (decodeTableWord 16) =
      [some (.cpfseq 1 195), some (.cpfsgt 1 195), some (.cpfslt 1 195),
        some (.decfsz 1 0 90), some (.dcfsnz 1 0 90), some (.incfsz 1 0 90),
        some (.infsnz 1 0 90), some (.tstfsz 1 195)] := by decide

theorem test_decode_move :
    [0b0101001001011010, 0b1100000100100011, 0b0110111111000011].map (decodeTableWord 16) =
      [some (.movf 1 0 90), some (.movff 291), some (.movwf 1 195)] := by decide

/-- R70, R71, section 2.2: words of PIC18 instructions REF31 leaves out, and the ends of the unknown ranges. -/
theorem test_decode_rejects :
    [0x0000, 0x01FF, 0x0800, 0x0E05, 0x0FFF, 0x7000, 0x8624, 0xBFFF, 0xD000, 0xEF00, 0xF030, 0xFFFF].map
      (decodeTableWord 16) = List.replicate 12 none := by decide

/-- R67, section 2.2: the words beside those ranges. -/
theorem test_decode_boundaries :
    [0x0200, 0x07FF, 0x1000, 0x6FFF, 0xC000, 0xCFFF].map (decodeTableWord 16) =
      [some (.mulwf 0 0), some (.decf 1 1 255), some (.iorwf 0 0 0), some (.movwf 1 255), some (.movff 0),
        some (.movff 4095)] := by decide

/-- The encoder on the same examples. -/
theorem test_encode :
    [encode (.addwf 1 0 90), encode (.clrf 1 195), encode (.movff 291), encode (.xorwf 1 0 90)] =
      [0x265A#16, 0x6BC3#16, 0xC123#16, 0x1A5A#16] := by decide

/-- P1: the bytes 0x21, 0x26 at an even address are the word 0x2621 under LITTLE (R43). -/
theorem test_host_bytes_little :
    (match decodeBytes .little [0x21, 0x26, 0x21] with
      | .ok r => some r
      | .error _ => none) = some (.addwf 1 0 33, [0x21]) := by decide

theorem test_host_bytes_truncated :
    (match decodeBytes .big [0x26] with
      | .ok _ => none
      | .error r => some r) = some Reject.truncated := by decide

/-! ### LOAD: the vectors of section 2.1, with MAX_ENTRIES = 64 unless the vector says otherwise -/

def wide15 (name : String) : List FieldDesc := [⟨name, 15⟩]

theorem test_load_accepts :
    [ firstFailure 64 ref31, firstFailure 64 [], firstFailure 31 ref31,                                  -- L1 L2 L10
      firstFailure 64 [⟨"BITS", "1", "abcdefghijklmno".toList.map (fun c => ⟨String.singleton c, 1⟩)⟩],  -- L18
      firstFailure 64 [⟨"HALT", "1111111111111111", []⟩],                                                -- L19
      firstFailure 64 [⟨"DUP", "0", [⟨"q", 7⟩, ⟨"q", 8⟩]⟩],                                              -- L20
      firstFailure 64 [⟨"P", "101", [⟨"u", 13⟩]⟩, ⟨"Q", "101", [⟨"v", 13⟩]⟩] ]                           -- L22
      = List.replicate 7 none := by decide

theorem test_load_rejects_one_fault :
    [ firstFailure 64 [⟨"X", "0101", [⟨"a", 8⟩]⟩],                             -- L3
      firstFailure 64 [⟨"X", "", [⟨"a", 16⟩]⟩],                                -- L4
      firstFailure 64 [⟨"X", "00000000000000000", []⟩],                        -- L5
      firstFailure 64 [⟨"X", "0101", [⟨"a", 0⟩, ⟨"b", 12⟩]⟩],                  -- L6
      firstFailure 64 [⟨"X", "0101", [⟨"a", -4⟩, ⟨"b", 16⟩]⟩],                 -- L7
      firstFailure 64 [⟨"X", "0", wide15 "a"⟩, ⟨"X", "1", wide15 "a"⟩],        -- L8
      firstFailure 31 (ref31 ++ [⟨"EXTRA", "1111", [⟨"k", 12⟩]⟩]),             -- L9
      firstFailure 64 [⟨"X", "0", wide15 "ab"⟩],                               -- L11
      firstFailure 64 [⟨"", "0", wide15 "a"⟩],                                 -- L12
      firstFailure 64 [⟨"X", "01x0", [⟨"a", 12⟩]⟩] ]                           -- L13
      = [some (.widthSum, 0), some (.prefixLength, 0), some (.prefixLength, 0), some (.fieldWidth, 0),
         some (.fieldWidth, 0), some (.dupMnemonic, 1), some (.tableTooLarge, 0), some (.fieldName, 0),
         some (.emptyMnemonic, 0), some (.prefixChar, 0)] := by decide

theorem test_load_reports_first_of_several :
    [ firstFailure 64 [⟨"X", "", [⟨"a", 12⟩]⟩],                                                    -- L14
      firstFailure 64 [⟨"X", "0101", [⟨"a", 0⟩, ⟨"b", 8⟩]⟩],                                       -- L15
      firstFailure 64 [⟨"X", "0101", [⟨"ab", 0⟩, ⟨"b", 12⟩]⟩],                                     -- L16
      firstFailure 64 [⟨"OK", "0", wide15 "a"⟩, ⟨"BAD1", "10", [⟨"a", 4⟩]⟩, ⟨"BAD2", "", []⟩] ]    -- L17
      = [some (.prefixLength, 0), some (.fieldWidth, 0), some (.fieldName, 0), some (.widthSum, 1)] := by decide

/-- L20 and L21: DUP_FIELD, two unnamed fields included. -/
theorem test_load_dup_field :
    [dupFlag [storedEntry ⟨"DUP", "0", [⟨"q", 7⟩, ⟨"q", 8⟩]⟩], dupFlag [storedEntry ⟨"U2", "1", [⟨"", 7⟩, ⟨"", 8⟩]⟩],
      dupFlag ref31Table] = [true, true, false] := by decide

/-- R104: T[0] after LOAD(REF31). -/
theorem test_load_ref31_first_entry :
    ref31Table.head? = some ⟨"ADDWF", 6, 9, [⟨some 'd', 1⟩, ⟨some 'a', 1⟩, ⟨some 'f', 8⟩]⟩ := by decide

/-- L3 as a step of LOAD. -/
theorem test_load_failure_state :
    execLoad 64 [⟨"X", "0101", [⟨"a", 8⟩]⟩] (mk .unloaded [] [.load [], .reset]) =
      { mk .malformed [] [.reset] with errCode := .widthSum, responses := [.loadFailed .widthSum 0] } := by decide

/-- L23 and L24: a second LOAD is refused. -/
theorem test_load_second_refused :
    [execLoad 64 [] (mk .loaded [good] [.load []]), execLoad 64 [] (mk .malformed [] [.load []])] =
      [mk .loaded [good] [], mk .malformed [] []] := by decide

/-! ### DECODE: the tables and vectors of sections 1 and 2 -/

def tieTable : List Entry := [⟨"P", 3, 5, [⟨some 'u', 13⟩]⟩, ⟨"Q", 3, 5, [⟨some 'v', 13⟩]⟩, ⟨"R", 5, 23, [⟨some 'w', 11⟩]⟩]

def nest : List Entry :=
  [⟨"LONG1", 1, 1, [⟨some 'x', 15⟩]⟩, ⟨"MID", 4, 12, [⟨some 'y', 12⟩]⟩, ⟨"DEEP", 6, 51, [⟨some 'z', 10⟩]⟩,
    ⟨"EXACT", 16, 0xCCCC, []⟩, ⟨"ZERO", 1, 0, [⟨some 'q', 7⟩, ⟨some 'q', 8⟩]⟩]

def bits : List Entry := [⟨"BITS", 1, 1, "abcdefghijklmno".toList.map (fun c => ⟨some c, 1⟩)⟩]
def mix : List Entry := [⟨"MIX", 2, 1, [⟨some 'p', 3⟩, ⟨some 'q', 5⟩, ⟨some 'r', 6⟩]⟩]
def unnamed2 : List Entry := [⟨"U2", 1, 1, [⟨none, 7⟩, ⟨none, 8⟩]⟩]

/-- S1 (C11), S2: the source's worked examples under REF31. -/
theorem test_decode_source_examples :
    [decodeOutcome ref31Table 0x2601#16, decodeOutcome ref31Table 0x2401#16, decodeOutcome ref31Table 0xC000#16] =
      [ .decoded 0 "ADDWF" [1, 0, 1] [(some 'd', 1), (some 'a', 0), (some 'f', 1)],
        .decoded 0 "ADDWF" [0, 0, 1] [(some 'd', 0), (some 'a', 0), (some 'f', 1)],
        .decoded 16 "MOVFF" [0] [(none, 0)] ] := by decide

/-- T1 to T7. -/
theorem test_decode_tie :
    [0xA000#16, 0xB800#16, 0xBFFF#16, 0xA7FF#16, 0xB000#16, 0x8000#16, 0x0000#16].map (decodeOutcome tieTable) =
      [ .ambiguousEncoding [0, 1], .decoded 2 "R" [0] [(some 'w', 0)], .decoded 2 "R" [2047] [(some 'w', 2047)],
        .ambiguousEncoding [0, 1], .ambiguousEncoding [0, 1], .unknownOpcode, .unknownOpcode ] := by decide

/-- N1 to N8, longest match. -/
theorem test_decode_nest :
    [0x8000#16, 0xFFFF#16, 0xC000#16, 0xC3FF#16, 0xCC00#16, 0xCCCC#16, 0xCFFF#16, 0xCCCD#16].map (decodeOutcome nest) =
      [ .decoded 0 "LONG1" [0] [(some 'x', 0)], .decoded 0 "LONG1" [32767] [(some 'x', 32767)],
        .decoded 1 "MID" [0] [(some 'y', 0)], .decoded 1 "MID" [1023] [(some 'y', 1023)],
        .decoded 2 "DEEP" [0] [(some 'z', 0)], .decoded 3 "EXACT" [] [], .decoded 2 "DEEP" [1023] [(some 'z', 1023)],
        .decoded 2 "DEEP" [205] [(some 'z', 205)] ] := by decide

/-- N11, N12, E12, E13: the later field of one name wins, the unnamed one included. -/
theorem test_decode_overwrite :
    [decodeOutcome nest 0x7FFF#16, decodeOutcome nest 0x4001#16, decodeOutcome unnamed2 0xFFFF#16,
      decodeOutcome unnamed2 0x8100#16] =
      [ .decoded 4 "ZERO" [127, 255] [(some 'q', 255)], .decoded 4 "ZERO" [64, 1] [(some 'q', 1)],
        .decoded 0 "U2" [127, 255] [(none, 255)], .decoded 0 "U2" [1, 0] [(none, 0)] ] := by decide

/-- E1, E4, E6, E8, E11: field positions and widths. -/
theorem test_decode_fields :
    [(decodeOutcome bits 0xA5A5#16).kind, (decodeOutcome bits 0x7FFF#16).kind] = [0, 1]
    ∧ (bits.map (rawFields · 0xA5A5#16)) = [[0, 1, 0, 0, 1, 0, 1, 1, 0, 1, 0, 0, 1, 0, 1]]
    ∧ [0x5555#16, 0x6041#16].map (fun w => mix.map (rawFields · w)) = [[[2, 21, 21]], [[4, 1, 1]]]
    ∧ decodeOutcome [⟨"HALT", 16, 0xFFFF, []⟩] 0xFFFE#16 = .unknownOpcode := by decide

/-- R11, R14, R111: the string view of a word, and a comparison that stops at the first mismatch. -/
theorem test_string_view :
    bitString 0x2601#16 = [false, false, true, false, false, true, true, false, false, false, false, false, false, false,
      false, true]
    ∧ val (bitString 0x2601#16) = 0x2601
    ∧ compareBits [true, true, false] (bitString 0xA000#16) = (false, 2) := by decide

/-- R22: ADDWF in the hardware representation. -/
theorem test_packed_entry :
    (ref31Table.head?.map packEntry) =
      some ⟨"ADDWF", 6#5, 9#16, 3#4, [⟨1#4, 100⟩, ⟨1#4, 97⟩, ⟨8#4, 102⟩]⟩ := by decide

/-! ### Steps: state, refusal, reset (section 2.6), and the order of service -/

/-- From reset with nothing at the port a step changes nothing. -/
theorem test_step_idle : nextOf (step State.reset) = some State.reset := by decide

/-- X1, X2: a DECODE outside LOADED gets no response and changes nothing. -/
theorem test_step_decode_refused :
    [nextOf (step (mk .unloaded [] [.decode 0 0x2601])), nextOf (step (mk .malformed [] [.decode 0 0x2601, .reset]))] =
      [some (mk .unloaded [] []), some (mk .malformed [] [.reset])] := by decide

/-- X3, X4: RESET. -/
theorem test_step_reset :
    [nextOf (step { mk .malformed [] [.reset] with errCode := .widthSum, errIndex := 2 }),
      nextOf (step (mk .loaded nest [.reset, .load []]))] =
      [some (mk .unloaded [] []), some (mk .unloaded [] [.load []])] := by decide

/-- X5: the tag comes back with the answer, and the block is as it was. -/
theorem test_step_decode_addwf :
    nextOf (step (mk .loaded ref31Table [.decode 7 0x2601])) =
      some { mk .loaded ref31Table [] with
        responses := [.decode 7 (.decoded 0 "ADDWF" [1, 0, 1] [(some 'd', 1), (some 'a', 0), (some 'f', 1)])] } := by
  decide

/-- P3 step 6: an ambiguous word is answered, not a stop. -/
theorem test_step_ambiguous :
    answers (step (mk .loaded tieTable [.decode 1 0xA000])) = some [.decode 1 (.ambiguousEncoding [0, 1])] := by decide

/-- An instruction's word under a table that is not REF31 is that table's (R4): 0x2601 under NEST is ZERO. -/
theorem test_step_other_table :
    answers (step (mk .loaded nest [.decode 0 0x2601])) =
      some [.decode 0 (.decoded 4 "ZERO" [38, 1] [(some 'q', 1)])] := by decide

/-- Entries beyond n are never read (R33). -/
theorem test_step_beyond_n :
    answers (step { mk .loaded nest [.decode 0 0x2601] with n := 4 }) = some [.decode 0 .unknownOpcode] := by decide

/-- R210: the RESET behind two DECODEs drops them and keeps what was issued after it. -/
theorem test_reset_drops :
    execReset (mk .loaded nest [.decode 0 0, .decode 1 0, .reset, .load []]) = mk .unloaded [] [.load []] := by decide

/-- R45: a host value of 2^16 is refused at the boundary, 2^16 - 1 is issued. -/
theorem test_issue_boundary :
    [State.reset.issueDecode 3 65536, State.reset.issueDecode 3 65535] =
      [none, some { State.reset with requests := [.decode 3 0xFFFF] }] := by decide

/-! ### One step of each family under REF31, placed by withFetchWord -/

def run1 (w : Nat) : Option (List Response) := answers (step (State.reset.withFetchWord 16 w))

/-- Section 2.2, field maxima: SUBWF d, NEGF f. -/
theorem test_run_arithmetic :
    [run1 0x5E00, run1 0x6CFF] =
      [some [.decode 0 (.decoded 26 "SUBWF" [1, 0, 0] [(some 'd', 1), (some 'a', 0), (some 'f', 0)])],
       some [.decode 0 (.decoded 19 "NEGF" [0, 255] [(some 'a', 0), (some 'f', 255)])]] := by decide

/-- Section 2.2: COMF a. P1: CLRF. -/
theorem test_run_logic :
    [run1 0x1D00, run1 0x6A23] =
      [some [.decode 0 (.decoded 4 "COMF" [0, 1, 0] [(some 'd', 0), (some 'a', 1), (some 'f', 0)])],
       some [.decode 0 (.decoded 3 "CLRF" [0, 35] [(some 'a', 0), (some 'f', 35)])]] := by decide

/-- Section 2.2: RRNCF f. -/
theorem test_run_rotate :
    run1 0x40FF = some [.decode 0 (.decoded 23 "RRNCF" [0, 0, 255] [(some 'd', 0), (some 'a', 0), (some 'f', 255)])] := by
  decide

/-- P1: DECFSZ and TSTFSZ. -/
theorem test_run_skip :
    [run1 0x2E22, run1 0x6725] =
      [some [.decode 0 (.decoded 9 "DECFSZ" [1, 0, 34] [(some 'd', 1), (some 'a', 0), (some 'f', 34)])],
       some [.decode 0 (.decoded 29 "TSTFSZ" [1, 37] [(some 'a', 1), (some 'f', 37)])]] := by decide

/-- P1: MOVFF and its second word, which is decoded on its own. -/
theorem test_run_move :
    [run1 0xC021, run1 0xF030] =
      [some [.decode 0 (.decoded 16 "MOVFF" [33] [(none, 33)])], some [.decode 0 .unknownOpcode]] := by decide

end Sys2Proof.Tests
end

