-- ==== Sys2Proof/Tests/Witnesses.lean ====
section
/-! SUPPORT. For every statement that has hypotheses, concrete values that meet all of them together (one theorem for each
statement, one conjunct for each clause). -/

namespace Sys2Proof.Tests

open Sys2Proof.Machine

/-- A LOADED state with REF31, one DECODE and a waiting LOAD. -/
def ready : State := mk .loaded ref31Table [.decode 7 0x2601, .load []]

/-- A LOADED state with a DECODE that a RESET may overtake. -/
def waiting : State := mk .loaded nest [.decode 7 0x2601, .decode 8 0xFFFF, .reset, .load []]

/-- The qualifier of R124 for a concrete table, checked over its entries. -/
theorem noRival_of_all {t : List Entry} {i len : Nat} {w : Word}
    (h : ∀ p ∈ t.zipIdx, p.2 ≠ i → matchesWord p.1 w = true → p.1.plen < len) : NoRival t i len w :=
  fun j e hj hji hm => h (e, j) (List.mem_zipIdx_iff_getElem?.mpr hj) hji hm

/-- Two different entries of REF31, for `Ref31IsPrefixFree`. -/
theorem witness_Ref31IsPrefixFree_rows :
    ∃ A B, ref31Table[0]? = some A ∧ ref31Table[30]? = some B ∧ (0 : Nat) ≠ 30 := by
  refine ⟨_, _, rfl, rfl, by decide⟩

/-- A table of well-formed entries without nested prefixes, for `Ref31IsPrefixFree`. -/
theorem witness_Ref31IsPrefixFree_table :
    let t : List Entry := [⟨"A", 1, 0, [⟨some 'x', 15⟩]⟩, ⟨"B", 16, 0xFFFF, []⟩]
    t.all Entry.wf = true ∧ ∀ (i j : Nat) (A B : Entry), t[i]? = some A → t[j]? = some B → i ≠ j →
      ¬ (prefixBits A <+: prefixBits B) := by
  refine ⟨by decide, ?_⟩
  intro i j A B hi hj hij
  match i, j with
  | 0, 1 => cases hi; cases hj; decide
  | 1, 0 => cases hi; cases hj; decide
  | 0, 0 => exact absurd rfl hij
  | 1, 1 => exact absurd rfl hij
  | 0, _ + 2 => simp at hj
  | 1, _ + 2 => simp at hj
  | _ + 2, _ => simp at hi

theorem witness_EncodeOfDecodeIsTheWord : decodeWord 0x6BC3 = .ok (.clrf 1 195) := rfl

/-- The first and the last word of an unknown range and of a decoded range. -/
theorem witness_OpcodeMapOfRef31 :
    (⟨0x0000, 0x01FF, none⟩ : MapRow) ∈ ref31Map ∧ (⟨0xD000, 0xFFFF, none⟩ : MapRow) ∈ ref31Map
    ∧ (⟨0xC000, 0xCFFF, some ("MOVFF", f12Names)⟩ : MapRow) ∈ ref31Map
    ∧ ref31Map[0]? = some ⟨0x0000, 0x01FF, none⟩ ∧ ref31Map[1]? = some ⟨0x0200, 0x03FF, some ("MULWF", faNames)⟩ := by
  decide

/-- Entries with the shortest and the longest prefix, and a word each matches. -/
theorem witness_MatchIsAMaskTest :
    Entry.wf ⟨"A", 1, 1, [⟨some 'x', 15⟩]⟩ = true ∧ Entry.wf ⟨"B", 16, 0xFFFF, []⟩ = true
    ∧ matchesWord ⟨"A", 1, 1, [⟨some 'x', 15⟩]⟩ 0x8000 = true ∧ matchesWord ⟨"B", 16, 0xFFFF, []⟩ 0xFFFF = true := by
  decide

/-- Two words that agree on the leading bits of an entry and differ below them. -/
theorem witness_MatchIsTheCharacterComparison :
    good.wf = true ∧ ∀ k, 16 - good.plen ≤ k → k < 16 → (0x5000 : Word).getLsbD k = (0x5FFF : Word).getLsbD k := by
  refine ⟨by decide, fun k _ hk => ?_⟩
  have : ∀ k < 16, 16 - good.plen ≤ k → (0x5000 : Word).getLsbD k = (0x5FFF : Word).getLsbD k := by decide
  exact this k hk (by assumption)

/-- The first and the last field of an entry with the most fields. -/
theorem witness_FieldValueIsItsUnsignedSlice :
    bits.all Entry.wf = true ∧ (bits.head?.bind (fun e => e.fields[0]?)) = some ⟨some 'a', 1⟩
    ∧ (bits.head?.bind (fun e => e.fields[14]?)) = some ⟨some 'o', 1⟩ := by decide

theorem witness_EveryBitBelongsToThePrefixOrOneField :
    good.wf = true ∧ good.fields[0]? = some ⟨some 'a', 4⟩ ∧ good.fields[1]? = some ⟨none, 8⟩ := by decide

theorem witness_MatchedWordIsPrefixThenFields : good.wf = true ∧ matchesWord good 0x5ABC = true := by decide

/-- `TIE` and 0xA000 (T1). -/
theorem witness_TieIsAmbiguousEncoding :
    GreatestLength tieTable 0xA000 3 ∧ (0 : Nat) ≠ 1
    ∧ tieTable[0]? = some ⟨"P", 3, 5, [⟨some 'u', 13⟩]⟩ ∧ tieTable[1]? = some ⟨"Q", 3, 5, [⟨some 'v', 13⟩]⟩
    ∧ matchesWord ⟨"P", 3, 5, [⟨some 'u', 13⟩]⟩ 0xA000 = true
    ∧ matchesWord ⟨"Q", 3, 5, [⟨some 'v', 13⟩]⟩ 0xA000 = true := by
  unfold GreatestLength
  decide

/-- `NEST` and 0xCCCC (N6): EXACT beside three shorter matches. -/
theorem witness_UniqueLongestMatchIsDecoded :
    nest[3]? = some ⟨"EXACT", 16, 0xCCCC, []⟩ ∧ matchesWord ⟨"EXACT", 16, 0xCCCC, []⟩ 0xCCCC = true
    ∧ NoRival nest 3 16 0xCCCC :=
  ⟨by decide, by decide, noRival_of_all (by decide)⟩

/-- `NEST` and 0xC000 (N3): LONG1 and MID. -/
theorem witness_LongerPrefixNeverResolvesToShorter :
    nest[0]? = some ⟨"LONG1", 1, 1, [⟨some 'x', 15⟩]⟩ ∧ nest[1]? = some ⟨"MID", 4, 12, [⟨some 'y', 12⟩]⟩
    ∧ matchesWord ⟨"LONG1", 1, 1, [⟨some 'x', 15⟩]⟩ 0xC000 = true
    ∧ matchesWord ⟨"MID", 4, 12, [⟨some 'y', 12⟩]⟩ 0xC000 = true
    ∧ prefixBits ⟨"LONG1", 1, 1, [⟨some 'x', 15⟩]⟩ <+: prefixBits ⟨"MID", 4, 12, [⟨some 'y', 12⟩]⟩
    ∧ prefixBits ⟨"LONG1", 1, 1, [⟨some 'x', 15⟩]⟩ ≠ prefixBits ⟨"MID", 4, 12, [⟨some 'y', 12⟩]⟩ := by decide

/-- `TIE` and 0xA000 (T1), for both clauses. -/
theorem witness_TiesNeedIdenticalPrefixes :
    decodeOutcome tieTable 0xA000 = .ambiguousEncoding [0, 1]
    ∧ tieTable[0]? = some ⟨"P", 3, 5, [⟨some 'u', 13⟩]⟩ ∧ tieTable[1]? = some ⟨"Q", 3, 5, [⟨some 'v', 13⟩]⟩
    ∧ prefixBits ⟨"P", 3, 5, [⟨some 'u', 13⟩]⟩ = prefixBits ⟨"Q", 3, 5, [⟨some 'v', 13⟩]⟩
    ∧ matchesWord ⟨"P", 3, 5, [⟨some 'u', 13⟩]⟩ 0xA000 = true ∧ matchesWord ⟨"Q", 3, 5, [⟨some 'v', 13⟩]⟩ 0xA000 = true
    ∧ ∀ e ∈ tieTable, matchesWord e 0xA000 = true → e.plen ≤ 3 := by decide

/-- `NEST`: the zero word of DEEP (N5), the field of ZERO at its maximum, and EXACT, which has no field. -/
theorem witness_ZeroAndMaximumFieldsRoundTrip :
    nest[2]? = some ⟨"DEEP", 6, 51, [⟨some 'z', 10⟩]⟩ ∧ Entry.wf ⟨"DEEP", 6, 51, [⟨some 'z', 10⟩]⟩ = true
    ∧ NoRival nest 2 6 (zeroWord ⟨"DEEP", 6, 51, [⟨some 'z', 10⟩]⟩)
    ∧ NoRival nest 2 6 (maxWord ⟨"DEEP", 6, 51, [⟨some 'z', 10⟩]⟩ 0 10)
    ∧ nest[3]? = some ⟨"EXACT", 16, 0xCCCC, []⟩ ∧ Entry.wf ⟨"EXACT", 16, 0xCCCC, []⟩ = true
    ∧ NoRival nest 3 16 (zeroWord ⟨"EXACT", 16, 0xCCCC, []⟩) :=
  ⟨by decide, by decide, noRival_of_all (by decide), noRival_of_all (by decide), by decide, by decide,
    noRival_of_all (by decide)⟩

theorem witness_StepRunsTheDecodedInstruction :
    ready.requests = .decode 7 0x2601 :: [.load []] ∧ decodeWord 0x2601 = .ok (.addwf 1 0 1)
    ∧ Request.reset ∉ [Request.load []]
    ∧ (mk .unloaded [] [.decode 7 0x2601]).status ≠ .loaded
    ∧ waiting.requests = .decode 7 0x2601 :: [.decode 8 0xFFFF, .reset, .load []] ∧ waiting.status = .loaded
    ∧ Request.reset ∈ [Request.decode 8 0xFFFF, .reset, .load []] :=
  ⟨rfl, rfl, by decide, by decide, rfl, rfl, by decide⟩

theorem witness_DecodeIsAcceptedOnlyWhenLoaded :
    (mk .malformed [] [.decode 7 0x2601]).requests = .decode 7 0x2601 :: []
    ∧ (mk .malformed [] [.decode 7 0x2601]).status ≠ .loaded
    ∧ ready.requests = .decode 7 0x2601 :: [.load []] ∧ ready.status = .loaded
    ∧ Request.reset ∉ [Request.load []] := by decide

/-- Two states with one live table that differ in everything else. -/
theorem witness_DecodeIsPure :
    let s₂ : State := { mk .loaded (ref31Table ++ nest) [.decode 9 0x2601] with
      n := 31, errIndex := 5, responses := [.loadOK] }
    ready.requests = .decode 7 0x2601 :: [.load []] ∧ s₂.requests = .decode 9 0x2601 :: []
    ∧ Request.reset ∉ [Request.load []] ∧ Request.reset ∉ ([] : List Request)
    ∧ ready.status = .loaded ∧ s₂.status = .loaded ∧ ready.table.take ready.n = s₂.table.take s₂.n
    ∧ (nextOf (step ready)).isSome = true := by decide

/-- A stream of two words, one of them unknown, before a waiting LOAD. -/
theorem witness_ResponsesLeaveInRequestOrder :
    let s := mk .loaded ref31Table [.decode 0 0x0000, .decode 2 0x2621, .load []]
    s.status = .loaded ∧ Request.reset ∉ [Request.load []]
    ∧ s.requests = [(0, (0x0000 : Word)), (2, 0x2621)].map (fun p => Request.decode p.1 p.2) ++ [.load []] := by decide

theorem witness_EveryInstructionIsAnsweredFromTheTable :
    waiting.status = .loaded ∧ waiting.requests = .decode 7 0x2601 :: [.decode 8 0xFFFF, .reset, .load []] := by decide

theorem witness_EveryInstructionIsRefusedOutsideLoaded :
    (mk .unloaded [] [.decode 7 0x2601]).status ≠ .loaded
    ∧ (mk .unloaded [] [.decode 7 0x2601]).requests = .decode 7 0x2601 :: [] := by decide

theorem witness_InstructionsLeaveTheBlockUnchanged : ∃ t, exec (.addwf 1 0 1) ready = .next t := ⟨_, rfl⟩

/-- One state for the five statements of the entries' responses under REF31. -/
theorem witness_EntriesDecode : HoldsRef31 ready ∧ ready.requests = .decode 7 0x2601 :: [.load []] :=
  ⟨⟨rfl, rfl, rfl⟩, rfl⟩

theorem witness_LoadIsRefusedOutsideUnloaded :
    (mk .malformed [] [.load ref31]).requests = .load ref31 :: [] ∧ (mk .malformed [] [.load ref31]).status ≠ .unloaded
    ∧ (mk .loaded nest [.load []]).requests = .load [] :: [] ∧ (mk .loaded nest [.load []]).status ≠ .unloaded := by
  decide

/-- REF31 is a sound description for every MAX_ENTRIES, and a description with a short entry is not. -/
theorem witness_LoadStoresExactlyTheSoundDescriptions :
    (mk .unloaded [] [.load ref31]).requests = .load ref31 :: [] ∧ (mk .unloaded [] [.load ref31]).status = .unloaded
    ∧ DescriptionOk Config.maxEntries ref31 ∧ ¬ DescriptionOk Config.maxEntries [⟨"X", "0101", [⟨"a", 8⟩]⟩] := by
  refine ⟨by decide, by decide, ?_, fun h => ?_⟩
  · have h31 : DescriptionOk 31 ref31 := Laws.firstFailure_eq_none.mp (by decide)
    exact ⟨Nat.le_trans h31.size (by unfold Config.maxEntries; omega), h31.entries, h31.unique⟩
  · exact absurd (h.entries ⟨"X", "0101", [⟨"a", 8⟩]⟩ (by simp)).fills (by decide)

/-- One witness for each clause of the check order, at the boundary of its range. -/
theorem witness_LoadReportsTheFirstFailingCheck :
    (([⟨"X", "0", wide15 "a"⟩, ⟨"Y", "1", wide15 "a"⟩] : List EntryDesc).length > 1)
    ∧ checkEntry [] ⟨"OK", "0", wide15 "a"⟩ = none
    ∧ checkEntry ["OK"] ⟨"BAD1", "10", [⟨"a", 4⟩]⟩ = some .widthSum
    ∧ checkEntry [] ⟨"", "0", wide15 "a"⟩ = some .emptyMnemonic
    ∧ checkEntry ["X"] ⟨"X", "1", wide15 "a"⟩ = some .dupMnemonic
    ∧ checkEntry [] ⟨"X", "00000000000000000", []⟩ = some .prefixLength
    ∧ checkEntry [] ⟨"X", "01x0", [⟨"a", 12⟩]⟩ = some .prefixChar
    ∧ checkEntry [] ⟨"X", "0101", [⟨"a", 1⟩, ⟨"ab", 11⟩]⟩ = some .fieldName
    ∧ checkEntry [] ⟨"X", "0101", [⟨"a", 12⟩, ⟨"b", 0⟩]⟩ = some .fieldWidth
    ∧ (mk .unloaded [] [.load [⟨"X", "0101", [⟨"a", 8⟩]⟩]]).requests = .load [⟨"X", "0101", [⟨"a", 8⟩]⟩] :: [] := by
  decide

/-- The last clause of the check order, for every MAX_ENTRIES. -/
theorem witness_LoadReportsTheFirstFailingCheck_step :
    firstFailure Config.maxEntries [⟨"X", "0101", [⟨"a", 8⟩]⟩] = some (.widthSum, 0) := by
  rw [firstFailure, if_neg (by unfold Config.maxEntries; simp)]
  decide

theorem witness_StoredPrefixKeepsLeadingZeros :
    (⟨"A", "0", wide15 "x"⟩ : EntryDesc).bits.length = 1 ∧ (⟨"B", "1111111111111111", []⟩ : EntryDesc).bits.length = 16
    ∧ (∀ c ∈ (⟨"A", "0", wide15 "x"⟩ : EntryDesc).bits.toList, c = '0' ∨ c = '1')
    ∧ ∀ c ∈ (⟨"B", "1111111111111111", []⟩ : EntryDesc).bits.toList, c = '0' ∨ c = '1' := by
  have h : (⟨"B", "1111111111111111", []⟩ : EntryDesc).bits.toList = List.replicate 16 '1' := by decide
  have h0 : (⟨"A", "0", wide15 "x"⟩ : EntryDesc).bits.toList = ['0'] := by decide
  refine ⟨by decide, by decide, fun c hc => ?_, fun c hc => ?_⟩
  · rw [h0] at hc
    exact .inl (List.mem_singleton.mp hc)
  rw [h] at hc
  exact .inr (List.eq_of_mem_replicate hc)

theorem witness_EmptyTableLoadsAndDecodesNothing :
    (mk .unloaded [] [.load []]).requests = .load [] :: [] ∧ (mk .unloaded [] [.load []]).status = .unloaded
    ∧ (mk .loaded [] [.decode 1 0x2601]).requests = .decode 1 0x2601 :: [] ∧ (mk .loaded [] [.decode 1 0x2601]).n = 0
    ∧ (mk .loaded [] [.decode 1 0x2601]).status = .loaded ∧ Request.reset ∉ ([] : List Request) := by decide

theorem witness_Ref31Loads :
    (mk .unloaded [] [.load ref31, .reset]).requests = .load ref31 :: [.reset]
    ∧ (mk .unloaded [] [.load ref31, .reset]).status = .unloaded := by decide

theorem witness_LoadedTableAnswersTheStreamBehindIt :
    let s := mk .unloaded [] [.load [], .decode 0 0x0000, .decode 2 0x2621, .load ref31]
    s.status = .unloaded ∧ DescriptionOk Config.maxEntries [] ∧ Request.reset ∉ [Request.load ref31]
    ∧ s.requests = .load [] ::
        ([(0, (0x0000 : Word)), (2, 0x2621)].map (fun p => Request.decode p.1 p.2) ++ [.load ref31]) :=
  ⟨rfl, ⟨Nat.zero_le _, by simp, by simp⟩, by decide, rfl⟩

theorem witness_ResetStateIsAsStated : ∃ t, step (mk .loaded nest [.reset]) = .next t := ⟨_, rfl⟩

/-- A LOADED state with a LOAD and a DECODE between the oldest DECODE and the RESET. -/
def blocked : State := mk .loaded nest [.decode 7 0x2601, .load [], .decode 8 0xFFFF, .reset, .load []]

/-- A RESET at the front, and one behind a LOAD and a DECODE. -/
theorem witness_ResetRestoresTheResetValues :
    (mk .malformed [] [.reset, .load []]).requests = .reset :: [.load []]
    ∧ blocked.status = .loaded ∧ Request.reset ∉ [Request.load [], .decode 8 0xFFFF]
    ∧ blocked.requests = .decode 7 0x2601 :: ([.load [], .decode 8 0xFFFF] ++ .reset :: [.load []]) := by
  decide

/-- One step of DECODE and one of RESET from LOADED. -/
theorem witness_LoadedStateIsLeftOnlyByReset :
    ready.status = .loaded ∧ (∃ t, step ready = .next t)
    ∧ (mk .loaded nest [.reset]).status = .loaded ∧ ∃ t, step (mk .loaded nest [.reset]) = .next t :=
  ⟨rfl, ⟨_, rfl⟩, rfl, ⟨_, rfl⟩⟩

/-- One step of DECODE, one of LOAD and one of RESET from MALFORMED. -/
theorem witness_MalformedStateIsLeftOnlyByReset :
    (∃ t, step (mk .malformed [] [.decode 0 0x2601]) = .next t) ∧ (∃ t, step (mk .malformed [] [.load ref31]) = .next t)
    ∧ (∃ t, step (mk .malformed [] [.reset]) = .next t) ∧ (mk .malformed [] [.reset]).status = .malformed
    ∧ ∃ u, step (mk .unloaded [] [.load []]) = .next u :=
  ⟨⟨_, rfl⟩, ⟨_, rfl⟩, ⟨_, rfl⟩, rfl, ⟨_, rfl⟩⟩

/-- A LOADED state with a table that meets the invariant, and its step. -/
theorem witness_StepKeepsTheInvariant :
    (mk .loaded nest [.decode 0 0xCCCC]).Inv ∧ ∃ t, step (mk .loaded nest [.decode 0 0xCCCC]) = .next t := by
  refine ⟨⟨rfl, ?_, by decide, by decide, rfl, by decide, fun _ => rfl, by decide⟩, ⟨_, rfl⟩⟩
  change 5 ≤ Config.maxEntries
  unfold Config.maxEntries
  omega

/-- An entry at each bound of the representation, and one whose name has code 0. -/
theorem witness_PackedEntryKeepsTheEntry :
    bits.all Entry.wf = true ∧ Entry.wf ⟨"B", 16, 0xFFFF, []⟩ = true
    ∧ Entry.wf ⟨"Z", 1, 0, [⟨some (Char.ofNat 0), 15⟩]⟩ = true := by decide

end Sys2Proof.Tests
end

section
/-! The state of the block: which operations keep the six state elements, and which give them their reset values
(10_state.md, R27 and R33). -/

namespace Sys2Proof.Proofs

open Sys2Proof Sys2Proof.Machine Sys2Proof.Laws

/-! ### Operations that keep the six state elements -/

theorem sameBlock_refl (s : State) : SameBlock s s := ⟨rfl, rfl, rfl, rfl, rfl, rfl⟩

theorem sameBlock_finish (s : State) (answer : Option Response) : SameBlock s (s.finish answer) :=
  ⟨rfl, rfl, rfl, rfl, rfl, rfl⟩

/-- The counter of free choices is not a state element, so counting one first makes no difference. -/
theorem sameBlock_of_countChoice {s t : State} (h : SameBlock s.countChoice t) : SameBlock s t :=
  ⟨h.status, h.n, h.table, h.errCode, h.errIndex, h.dupField⟩

/-- DECODE writes no state element (R121), whether it is accepted or refused. -/
theorem sameBlock_decodeRequest (w : Word) (s : State) : SameBlock s (decodeRequest w s) := by
  obtain h | ⟨answer, h⟩ := decodeRequest_cases w s
  · rw [h]
    exact sameBlock_refl s
  · rw [h]
    exact sameBlock_finish s answer

/-- A LOAD outside UNLOADED is refused: it only leaves the port (R103). -/
theorem execLoad_refused {s : State} (limit : Nat) (d : List EntryDesc) (hs : s.status ≠ .unloaded) :
    execLoad limit d s = s.finish none := by
  obtain ⟨-, h⟩ | ⟨_, _, hu, -⟩ | ⟨hu, -⟩ := execLoad_cases limit d s
  · exact h
  · exact absurd hu hs
  · exact absurd hu hs

/-! ### RESET -/

theorem blockReset_execReset (s : State) : BlockReset (execReset s) := ⟨rfl, rfl, rfl, rfl, rfl, rfl⟩

/-- A step that finds a RESET oldest serves it. -/
theorem step_reset {s : State} {rest : List Request} (hr : s.requests = .reset :: rest) :
    step s = .next (execReset s) := by
  simp only [step, hr]

/-! ### A step outside UNLOADED -/

/-- Outside UNLOADED only a RESET at the port writes the state elements: LOAD is refused, and DECODE writes none. -/
theorem step_keeps_or_resets_block {s t : State} (hs : s.status ≠ .unloaded) (h : step s = .next t) :
    SameBlock s t ∨ (Request.reset ∈ s.requests ∧ BlockReset t) := by
  obtain ⟨-, hstep⟩ | ⟨rest, hr, hstep⟩ | ⟨d, rest, -, hstep⟩ | ⟨seq, w, rest, v, hr, hdecode⟩ := step_cases s
  · cases hstep.symm.trans h
    exact .inl (sameBlock_refl s)
  · cases hstep.symm.trans h
    exact .inr ⟨by simp [hr], blockReset_execReset s⟩
  · cases hstep.symm.trans h
    rw [execLoad_refused _ d hs]
    exact .inl (sameBlock_finish s none)
  · obtain hstep | ⟨-, hwaits, hstep | hstep⟩ := hdecode
    · cases hstep.symm.trans h
      exact .inl (sameBlock_decodeRequest v s)
    · cases hstep.symm.trans h
      exact .inr ⟨by simp [hr, hwaits], blockReset_execReset s.countChoice⟩
    · cases hstep.symm.trans h
      exact .inl (sameBlock_of_countChoice (sameBlock_decodeRequest v s.countChoice))

/-! ### The obligations -/

/-- Settles O42: LOADED is one of the states in which only a RESET writes the state elements. -/
theorem loadedStateIsLeftOnlyByReset : Obligations.LoadedStateIsLeftOnlyByReset := by
  intro s t hs h
  exact step_keeps_or_resets_block (by simp [hs]) h

/-- Settles O41: the reset state by its definition, and every RESET served by what RESET writes. -/
theorem resetStateIsAsStated : Obligations.ResetStateIsAsStated := by
  refine ⟨⟨rfl, rfl, rfl, rfl, rfl, rfl⟩, rfl, rfl, rfl, rfl, ?_⟩
  intro s t rest hr h
  cases (step_reset hr).symm.trans h
  exact blockReset_execReset s

end Sys2Proof.Proofs
end

section
/-! The string view of a word and of a prefix (00_scope.md R11, R12, R14): how a bit string splits, what it is worth, and
that the match predicate asks for a leading part of the word's string (41_decode.md R111) or, with the same answer, for
the leading bits under a mask (R63). -/

namespace Sys2Proof.Proofs

open Sys2Proof Sys2Proof.Machine Sys2Proof.Laws

/-! ### Bit strings -/

@[simp] theorem length_bitsOf (v n : Nat) : (bitsOf v n).length = n := by
  induction n with
  | zero => rfl
  | succ n ih => simp [bitsOf, ih]

/-- A bit string splits into the string of its high bits and the string of its low bits. -/
theorem bitsOf_add (v m n : Nat) : bitsOf v (m + n) = bitsOf (v / 2 ^ n) m ++ bitsOf v n := by
  induction m with
  | zero => simp [bitsOf]
  | succ m ih => simp [Nat.succ_add, bitsOf, ih, Nat.testBit_div_two_pow]

theorem take_bitsOf_add (v m n : Nat) : (bitsOf v (m + n)).take m = bitsOf (v / 2 ^ n) m := by
  rw [bitsOf_add, List.take_left' (length_bitsOf _ _)]

theorem drop_bitsOf_add (v m n : Nat) : (bitsOf v (m + n)).drop m = bitsOf v n := by
  rw [bitsOf_add, List.drop_left' (length_bitsOf _ _)]

/-- The characters at positions `a` to `a + n - 1` of a string with `b` more behind them (R12). -/
theorem substring_bitsOf (v a n b : Nat) : substring (bitsOf v (a + (n + b))) a n = bitsOf (v / 2 ^ b) n := by
  rw [substring, drop_bitsOf_add, take_bitsOf_add]

/-- A character appended on the right doubles what stands before it (R14). -/
theorem val_append_singleton (s : List Bool) (b : Bool) : val (s ++ [b]) = 2 * val s + b.toNat := by
  simp [val]

/-- The value of the `n` low bits of `v` is `v` modulo `2 ^ n` (R14). -/
theorem val_bitsOf (v n : Nat) : val (bitsOf v n) = v % 2 ^ n := by
  induction n generalizing v with
  | zero => simp [bitsOf, val, Nat.mod_one]
  | succ n ih =>
    have hlast : bitsOf v 1 = [v.testBit 0] := rfl
    rw [bitsOf_add v n 1, hlast, val_append_singleton, ih, pow_one, Nat.toNat_testBit, pow_succ', Nat.mod_mul]
    omega

/-- A value of `n` bits is read off its string. -/
theorem bitsOf_inj {u v n : Nat} (hu : u < 2 ^ n) (hv : v < 2 ^ n) : bitsOf u n = bitsOf v n ↔ u = v := by
  refine ⟨fun h => ?_, fun h => h ▸ rfl⟩
  have hval := congrArg val h
  rwa [val_bitsOf, val_bitsOf, Nat.mod_eq_of_lt hu, Nat.mod_eq_of_lt hv] at hval

/-! ### Well-formed entries -/

/-- The checks of a stored entry (R21), one by one. -/
theorem wf_iff {e : Entry} :
    e.wf = true ↔ 1 ≤ e.plen ∧ e.plen ≤ 16 ∧ e.pval < 2 ^ e.plen ∧ (∀ f ∈ e.fields, 1 ≤ f.width ∧ f.width ≤ 15)
      ∧ e.plen + e.widthSum = 16 := by
  simp [Entry.wf, and_assoc]

/-! ### The match predicate -/

/-- What lies above the `16 - n` low bits of a word fits `n` bits. -/
theorem word_div_lt (w : Word) {n : Nat} (hn : n ≤ 16) : w.toNat / 2 ^ (16 - n) < 2 ^ n := by
  rw [Nat.div_lt_iff_lt_mul (Nat.two_pow_pos _), ← pow_add, Nat.add_sub_cancel' hn]
  exact w.isLt

/-- The slice from bit 15 down is the word without the bits below it. -/
theorem slice_leading (w : Word) {n : Nat} (h1 : 1 ≤ n) (h16 : n ≤ 16) :
    slice w 15 (16 - n) = w.toNat / 2 ^ (16 - n) := by
  have hwidth : 15 - (16 - n) + 1 = n := by omega
  rw [slice, hwidth, Nat.mod_eq_of_lt (word_div_lt w h16)]

theorem matchesWord_iff_div {e : Entry} (w : Word) (he : e.wf = true) :
    matchesWord e w = true ↔ w.toNat / 2 ^ (16 - e.plen) = e.pval := by
  obtain ⟨h1, h16, -⟩ := wf_iff.mp he
  rw [matchesWord, beq_iff_eq, slice_leading w h1 h16]

/-- An entry matches exactly when its prefix string begins the word's string (R111). -/
theorem matchesWord_iff_prefix {e : Entry} (w : Word) (he : e.wf = true) :
    matchesWord e w = true ↔ prefixBits e <+: bitString w := by
  obtain ⟨-, h16, hval, -⟩ := wf_iff.mp he
  have hlead : (bitString w).take e.plen = bitsOf (w.toNat / 2 ^ (16 - e.plen)) e.plen := by
    rw [← take_bitsOf_add, Nat.add_sub_cancel' h16, bitString]
  rw [List.prefix_iff_eq_take, prefixBits, length_bitsOf, hlead, bitsOf_inj hval (word_div_lt w h16),
    matchesWord_iff_div w he, eq_comm]

/-- A mask that stands `q` bits to the left masks what lies above the `q` low bits. -/
theorem and_shiftLeft_eq (x m q : Nat) : x &&& (m <<< q) = ((x >>> q) &&& m) <<< q := by
  apply Nat.eq_of_testBit_eq
  intro i
  by_cases hi : q ≤ i
  · simp [hi, Nat.testBit_shiftLeft, Nat.testBit_shiftRight]
  · simp [hi, Nat.testBit_shiftLeft]

theorem maskOf_eq_shiftLeft (e : Entry) : maskOf e = (2 ^ e.plen - 1) <<< (16 - e.plen) :=
  (Nat.shiftLeft_eq _ _).symm

theorem matchOf_eq_shiftLeft (e : Entry) : matchOf e = e.pval <<< (16 - e.plen) :=
  (Nat.shiftLeft_eq _ _).symm

/-- Under the mask of an entry a word keeps its leading bits, in their place (R63). -/
theorem word_and_maskOf {e : Entry} (w : Word) (h16 : e.plen ≤ 16) :
    w.toNat &&& maskOf e = w.toNat / 2 ^ (16 - e.plen) * 2 ^ (16 - e.plen) := by
  rw [maskOf_eq_shiftLeft, and_shiftLeft_eq, Nat.shiftRight_eq_div_pow, Nat.and_two_pow_sub_one_eq_mod,
    Nat.mod_eq_of_lt (word_div_lt w h16), Nat.shiftLeft_eq]

/-- Settles O7: both tests compare the leading bits with `pval`, the mask test after a shift that loses nothing. -/
theorem matchIsAMaskTest : Obligations.MatchIsAMaskTest := by
  refine ⟨fun e w he => ?_, fun e => ⟨maskOf_eq_shiftLeft e, matchOf_eq_shiftLeft e⟩, by decide⟩
  obtain ⟨-, h16, -⟩ := wf_iff.mp he
  rw [word_and_maskOf w h16, matchOf, Nat.mul_left_inj (Nat.two_pow_pos _).ne', matchesWord_iff_div w he]

end Sys2Proof.Proofs
end

section
/-! Tables without nested prefixes, REF31 among them: a word has at most one candidate (40_encoding.md R68). -/

namespace Sys2Proof.Proofs

open Sys2Proof Sys2Proof.Machine Sys2Proof.Laws

/-- No prefix of the table is a prefix of another entry's (R68). -/
def PrefixFree (t : List Entry) : Prop :=
  ∀ (i j : Nat) (A B : Entry), t[i]? = some A → t[j]? = some B → i ≠ j → ¬ (prefixBits A <+: prefixBits B)

/-- Prefix-freeness, from a check of each entry against the entries behind it. -/
theorem prefixFree_of_pairwise {t : List Entry}
    (h : t.Pairwise (fun A B => ¬ (prefixBits A <+: prefixBits B) ∧ ¬ (prefixBits B <+: prefixBits A))) :
    PrefixFree t := by
  intro i j A B hi hj hij
  obtain ⟨hi', rfl⟩ := List.getElem?_eq_some_iff.mp hi
  obtain ⟨hj', rfl⟩ := List.getElem?_eq_some_iff.mp hj
  rcases Nat.lt_or_gt_of_ne hij with hlt | hgt
  · exact (List.pairwise_iff_getElem.mp h i j hi' hj' hlt).1
  · exact (List.pairwise_iff_getElem.mp h j i hj' hi' hgt).2

theorem prefixFree_ref31Table : PrefixFree ref31Table := prefixFree_of_pairwise (by decide)

theorem ref31Table_wf : ref31Table.all Entry.wf = true := by decide

/-- Two entries that match one word have nested prefixes, as both begin the word's string. -/
theorem prefix_or_prefix_of_matchesWord {A B : Entry} {w : Word} (hA : A.wf = true) (hB : B.wf = true)
    (hAw : matchesWord A w = true) (hBw : matchesWord B w = true) :
    prefixBits A <+: prefixBits B ∨ prefixBits B <+: prefixBits A :=
  List.prefix_or_prefix_of_prefix ((matchesWord_iff_prefix w hA).mp hAw) ((matchesWord_iff_prefix w hB).mp hBw)

/-- In a prefix-free table two matching entries are one entry. -/
theorem index_eq_of_matchesWord {t : List Entry} {w : Word} {i j : Nat} {A B : Entry} (hwf : t.all Entry.wf = true)
    (hfree : PrefixFree t) (hi : t[i]? = some A) (hj : t[j]? = some B) (hA : matchesWord A w = true)
    (hB : matchesWord B w = true) : i = j := by
  by_contra hij
  have hwf' := List.all_eq_true.mp hwf
  rcases prefix_or_prefix_of_matchesWord (hwf' A (List.mem_of_getElem? hi)) (hwf' B (List.mem_of_getElem? hj)) hA hB
    with h | h
  · exact hfree i j A B hi hj hij h
  · exact hfree j i B A hj hi (Ne.symm hij) h

theorem length_candidates_le_one {t : List Entry} (w : Word) (hwf : t.all Entry.wf = true) (hfree : PrefixFree t) :
    (candidates t w).length ≤ 1 := by
  match hc : candidates t w with
  | [] => simp
  | [_] => simp
  | (A, i) :: (B, j) :: rest =>
    obtain ⟨hi, hA⟩ := mem_candidates.mp (show (A, i) ∈ candidates t w by simp [hc])
    obtain ⟨hj, hB⟩ := mem_candidates.mp (show (B, j) ∈ candidates t w by simp [hc])
    have hasc := hc ▸ candidates_ascending t w
    have hlt : i < j := List.rel_of_pairwise_cons hasc (List.mem_cons_self)
    exact absurd (index_eq_of_matchesWord hwf hfree hi hj hA hB) hlt.ne

/-- A tie needs two candidates (R117). -/
theorem not_ambiguous_of_length_candidates_le_one {t : List Entry} {w : Word} (h : (candidates t w).length ≤ 1)
    (tied : List Nat) : decodeOutcome t w ≠ .ambiguousEncoding tied := by
  obtain ⟨-, hout⟩ | ⟨_, _, -, hout⟩ | ⟨htwo, -⟩ := decodeOutcome_cases t w
  · simp [hout]
  · simp [hout]
  · have hle : (winners (candidates t w)).length ≤ (candidates t w).length := List.length_filter_le _ _
    omega

/-- Settles O6: prefixes that begin one word's string are nested, so a prefix-free table has no second candidate. -/
theorem ref31IsPrefixFree : Obligations.Ref31IsPrefixFree := by
  have hgeneral : ∀ (t : List Entry) (w : Word), t.all Entry.wf = true → PrefixFree t →
      (candidates t w).length ≤ 1 ∧ ∀ tied, decodeOutcome t w ≠ .ambiguousEncoding tied :=
    fun t w hwf hfree =>
      have hone := length_candidates_le_one w hwf hfree
      ⟨hone, not_ambiguous_of_length_candidates_le_one hone⟩
  exact ⟨prefixFree_ref31Table, hgeneral, fun w => hgeneral ref31Table w ref31Table_wf prefixFree_ref31Table⟩

end Sys2Proof.Proofs
end

section
/-! Where the fields of an entry lie in a word and what values they have (40_encoding.md R61, R62; 41_decode.md R113). -/

namespace Sys2Proof.Proofs

open Sys2Proof Sys2Proof.Machine Sys2Proof.Laws

/-! ### Field positions -/

@[simp] theorem fieldStart_zero (e : Entry) : fieldStart e 0 = e.plen := by
  simp [fieldStart]

theorem fieldStart_succ {e : Entry} {j : Nat} {f : Field} (hf : e.fields[j]? = some f) :
    fieldStart e (j + 1) = fieldStart e j + f.width := by
  simp [fieldStart, List.take_add_one, hf, Nat.add_assoc]

theorem fieldStart_length {e : Entry} (he : e.wf = true) : fieldStart e e.fields.length = 16 := by
  obtain ⟨-, -, -, -, hfill⟩ := wf_iff.mp he
  rw [fieldStart, List.take_length]
  exact hfill

theorem fieldStart_mono (e : Entry) : Monotone (fieldStart e) := by
  refine monotone_nat_of_le_succ fun j => ?_
  cases hf : e.fields[j]? with
  | none => simp [fieldStart, List.take_add_one, hf]
  | some f => exact fieldStart_succ hf ▸ Nat.le_add_right _ _

/-- A field of a well-formed entry is not empty and ends inside the word. -/
theorem field_bounds {e : Entry} {j : Nat} {f : Field} (he : e.wf = true) (hf : e.fields[j]? = some f) :
    1 ≤ f.width ∧ f.width ≤ 15 ∧ fieldStart e j + f.width ≤ 16 := by
  obtain ⟨-, -, -, hwidths, -⟩ := wf_iff.mp he
  obtain ⟨h1, h15⟩ := hwidths f (List.mem_of_getElem? hf)
  obtain ⟨hj, -⟩ := List.getElem?_eq_some_iff.mp hf
  refine ⟨h1, h15, ?_⟩
  rw [← fieldStart_succ hf, ← fieldStart_length he]
  exact fieldStart_mono e hj

/-- Bit `k` lies in field number `j` exactly when its position counted from 1 at the left does. -/
theorem bit_mem_field_iff {e : Entry} {j k : Nat} (he : e.wf = true) (hj : j < e.fields.length) (hk : k < 16) :
    (16 - fieldStart e (j + 1) ≤ k ∧ k ≤ 15 - fieldStart e j) ↔
      16 - k ∈ Set.Ioc (fieldStart e j) (fieldStart e (j + 1)) := by
  have hf : e.fields[j]? = some e.fields[j] := List.getElem?_eq_getElem hj
  have hbounds := field_bounds he hf
  rw [Set.mem_Ioc, fieldStart_succ hf]
  omega

/-- The fields cover every bit below the prefix. -/
theorem exists_field_of_lt {e : Entry} {k : Nat} (he : e.wf = true) (hk : k < 16 - e.plen) :
    ∃ j < e.fields.length, 16 - k ∈ Set.Ioc (fieldStart e j) (fieldStart e (j + 1)) := by
  have hmem : 16 - k ∈ Set.Ioc (fieldStart e 0) (fieldStart e e.fields.length) := by
    rw [fieldStart_zero, fieldStart_length he, Set.mem_Ioc]
    omega
  rw [← (fieldStart_mono e).biUnion_Ico_Ioc_map_succ] at hmem
  obtain ⟨j, hj, hfield⟩ := Set.mem_iUnion₂.mp hmem
  exact ⟨j, (Set.mem_Ico.mp hj).2, hfield⟩

/-- No bit lies in two fields. -/
theorem field_unique {e : Entry} {i j p : Nat} (hi : p ∈ Set.Ioc (fieldStart e i) (fieldStart e (i + 1)))
    (hj : p ∈ Set.Ioc (fieldStart e j) (fieldStart e (j + 1))) : i = j := by
  by_contra hij
  exact Set.disjoint_left.mp ((fieldStart_mono e).pairwise_disjoint_on_Ioc_succ hij) hi hj

/-- Every field lies below the prefix. -/
theorem lt_of_bit_mem_field {e : Entry} {j k : Nat} (h : 16 - k ∈ Set.Ioc (fieldStart e j) (fieldStart e (j + 1))) :
    k < 16 - e.plen := by
  have hle : fieldStart e 0 ≤ fieldStart e j := fieldStart_mono e (Nat.zero_le j)
  rw [fieldStart_zero] at hle
  obtain ⟨hlt, -⟩ := Set.mem_Ioc.mp h
  omega

/-- Settles O10: the field starts ascend from `plen` to 16, so the fields partition the bits below the prefix. -/
theorem everyBitBelongsToThePrefixOrOneField : Obligations.EveryBitBelongsToThePrefixOrOneField := by
  intro e he
  refine ⟨fieldStart_zero e, fieldStart_length he, fun j f hf => fieldStart_succ hf, fun k hk => ?_⟩
  by_cases hprefix : 16 - e.plen ≤ k
  · refine .inl ⟨hprefix, fun j hj hmem => ?_⟩
    exact absurd (lt_of_bit_mem_field ((bit_mem_field_iff he hj hk).mp hmem)) (by omega)
  · obtain ⟨j, hj, hmem⟩ := exists_field_of_lt (k := k) he (by omega)
    refine .inr ⟨by omega, j, hj, (bit_mem_field_iff he hj hk).mpr hmem, fun i hi hmem' => ?_⟩
    exact field_unique ((bit_mem_field_iff he hi hk).mp hmem') hmem

/-! ### Field values -/

/-- Extraction reads field number `j` at the cursor plus the widths of the fields before it (R113). -/
theorem extractFrom_getElem? (w : Word) {fields : List Field} {j : Nat} {f : Field} (c : Nat)
    (hf : fields[j]? = some f) :
    (extractFrom w c fields)[j]? = some (BitVec.ofNat 16
      (slice w (15 - (c + ((fields.take j).map (·.width)).sum))
        (16 - (c + ((fields.take j).map (·.width)).sum) - f.width))) := by
  induction fields generalizing c j with
  | nil => simp at hf
  | cons g rest ih =>
    cases j with
    | zero =>
      obtain rfl : g = f := by simpa using hf
      simp [extractFrom]
    | succ j =>
      simp [extractFrom, ih (c + g.width) (by simpa using hf), Nat.add_assoc]

/-- The value of a field in `raw` is the slice at the field's position (R62, R113). -/
theorem rawFields_getElem? {e : Entry} (w : Word) {j : Nat} {f : Field} (hf : e.fields[j]? = some f) :
    (rawFields e w)[j]? =
      some (BitVec.ofNat 16 (slice w (15 - fieldStart e j) (16 - fieldStart e (j + 1)))) := by
  rw [fieldStart_succ hf, ← Nat.sub_sub]
  exact extractFrom_getElem? w e.plen hf

/-- The slice at a field's position is as wide as the field. -/
theorem slice_field {e : Entry} (w : Word) {j : Nat} {f : Field} (he : e.wf = true) (hf : e.fields[j]? = some f) :
    slice w (15 - fieldStart e j) (16 - fieldStart e (j + 1)) =
      w.toNat / 2 ^ (16 - fieldStart e (j + 1)) % 2 ^ f.width := by
  have hbounds := field_bounds he hf
  have hwidth : 15 - fieldStart e j - (16 - fieldStart e (j + 1)) + 1 = f.width := by
    rw [fieldStart_succ hf]
    omega
  rw [slice, hwidth]

/-- The slice at a field's position is the value of the characters there (R14). -/
theorem val_substring_field {e : Entry} (w : Word) {j : Nat} {f : Field} (he : e.wf = true)
    (hf : e.fields[j]? = some f) :
    val (substring (bitString w) (fieldStart e j) f.width) =
      w.toNat / 2 ^ (16 - fieldStart e (j + 1)) % 2 ^ f.width := by
  have hbounds := field_bounds he hf
  have hsplit : fieldStart e j + (f.width + (16 - fieldStart e (j + 1))) = 16 := by
    rw [fieldStart_succ hf]
    omega
  rw [← val_bitsOf, ← substring_bitsOf _ (fieldStart e j), hsplit, bitString]

/-- Settles O9: the slice is as wide as the field, so it fits 16 bits and is the value of the field's characters. -/
theorem fieldValueIsItsUnsignedSlice : Obligations.FieldValueIsItsUnsignedSlice := by
  intro e w j f he hf
  obtain ⟨-, h15, -⟩ := field_bounds he hf
  have hslice := slice_field w he hf
  have hlt : slice w (15 - fieldStart e j) (16 - fieldStart e (j + 1)) < 2 ^ f.width :=
    hslice ▸ Nat.mod_lt _ (Nat.two_pow_pos _)
  have hpow : 2 ^ f.width ≤ 2 ^ 16 := Nat.pow_le_pow_right (by decide) (by omega)
  have hval : (BitVec.ofNat 16 (slice w (15 - fieldStart e j) (16 - fieldStart e (j + 1)))).toNat =
      slice w (15 - fieldStart e j) (16 - fieldStart e (j + 1)) :=
    BitVec.toNat_ofNat _ _ ▸ Nat.mod_eq_of_lt (hlt.trans_le hpow)
  refine ⟨_, rawFields_getElem? w hf, hval, hval.trans hslice, hval.trans_lt hlt, ?_⟩
  rw [hval, hslice, val_substring_field w he hf]

end Sys2Proof.Proofs
end

section
/-! LOAD and an accepted DECODE as steps (40_table_load.md R102 to R104): what a LOAD in UNLOADED does with its
description, and what an empty table answers. -/

namespace Sys2Proof.Proofs

open Sys2Proof Sys2Proof.Machine Sys2Proof.Laws

/-! ### The oldest request leaves the port -/

theorem finish_some_eq {s : State} {r : Request} {rest : List Request} (answer : Response)
    (hr : s.requests = r :: rest) :
    s.finish (some answer) = { s with requests := rest, responses := s.responses ++ [answer] } := by
  simp [State.finish, hr]

/-! ### LOAD in UNLOADED -/

theorem step_load {s : State} {d : List EntryDesc} {rest : List Request} (hr : s.requests = .load d :: rest) :
    step s = .next (execLoad Config.maxEntries d s) := by
  simp only [step, hr]

/-- A description that fails a check is rejected whole (R99, R104). -/
theorem step_load_rejected {s : State} {d : List EntryDesc} {rest : List Request} {c : ErrCode} {i : Nat}
    (hr : s.requests = .load d :: rest) (hs : s.status = .unloaded)
    (hfail : firstFailure Config.maxEntries d = some (c, i)) :
    step s = .next { s with
      status := .malformed, n := 0, table := [], dupField := false, errCode := c, errIndex := i, requests := rest,
      responses := s.responses ++ [.loadFailed c i] } := by
  have hload : execLoad Config.maxEntries d s = (s.rejectTable c i).finish (some (.loadFailed c i)) := by
    simp only [execLoad, hs, hfail]
  rw [step_load hr, hload, finish_some_eq _ ((rejectTable_requests s c i).trans hr)]
  rfl

/-- A sound description is stored whole (R91, R104). -/
theorem step_load_accepted {s : State} {d : List EntryDesc} {rest : List Request}
    (hr : s.requests = .load d :: rest) (hs : s.status = .unloaded) (hok : DescriptionOk Config.maxEntries d) :
    step s = .next { s with
      status := .loaded, n := d.length, table := d.map storedEntry, dupField := dupFlag (d.map storedEntry),
      requests := rest, responses := s.responses ++ [.loadOK] } := by
  have hload : execLoad Config.maxEntries d s = (s.storeTable d).finish (some .loadOK) := by
    simp only [execLoad, hs, firstFailure_eq_none.mpr hok]
  rw [step_load hr, hload, finish_some_eq _ ((storeTable_requests s d).trans hr)]
  rfl

/-! ### The empty table -/

/-- The empty description meets every check (R102). -/
theorem descriptionOk_nil (limit : Nat) : DescriptionOk limit [] :=
  ⟨Nat.zero_le limit, by simp, List.nodup_nil⟩

/-- With no RESET behind it a DECODE is served at once. -/
theorem step_decode {s : State} {seq : Nat} {w : Word} {rest : List Request} (hr : s.requests = .decode seq w :: rest)
    (hwaits : Request.reset ∉ rest) : step s = runWord w s := by
  have hclosed : ¬ s.resetChoiceOpen = true := by
    simp [State.resetChoiceOpen, hr, resetWaits_iff, hwaits]
  simp only [step, hr, serveDecode, if_neg hclosed]

@[simp] theorem decodeOutcome_nil (w : Word) : decodeOutcome [] w = .unknownOpcode := rfl

theorem liveTable_eq_nil {s : State} (hn : s.n = 0) : s.liveTable = [] := by
  rw [State.liveTable, hn, List.take_zero]

/-- Settles O37: the empty description is sound, and an empty table has no candidate for any word. -/
theorem emptyTableLoadsAndDecodesNothing : Obligations.EmptyTableLoadsAndDecodesNothing := by
  refine ⟨fun s rest hr hs => step_load_accepted hr hs (descriptionOk_nil _), ?_⟩
  intro s seq w rest hr hs hn hwaits
  obtain ⟨v, hv⟩ := runWord_is_decodeRequest w
  rw [step_decode hr hwaits, hv, decodeRequest_loaded v hs hr, liveTable_eq_nil hn, decodeOutcome_nil,
    finish_some_eq _ hr]

end Sys2Proof.Proofs
end

section
/-! The order of LOAD's checks (40_table_load.md R99): which check of a field, of an entry and of a description fails
first. -/

namespace Sys2Proof.Proofs

open Sys2Proof Sys2Proof.Machine Sys2Proof.Laws

/-! ### The fields of an entry (R97, R98)

`checkFields [f]` is the verdict on the field `f` alone. -/

theorem checkFields_cons (f : FieldDesc) (fs : List FieldDesc) :
    checkFields (f :: fs) = (checkFields [f]).or (checkFields fs) := by
  simp only [checkFields]
  split
  · rfl
  · split <;> rfl

theorem checkFields_singleton_eq_none {f : FieldDesc} : checkFields [f] = none ↔ FieldDescOk f := by
  rw [checkFields_eq_none, List.forall_mem_singleton]

theorem checkFields_singleton_eq_fieldName {f : FieldDesc} :
    checkFields [f] = some .fieldName ↔ f.name.length > 1 := by
  simp only [checkFields]
  exact Ne.ite_eq_left_iff (by split <;> decide)

theorem checkFields_singleton_eq_fieldWidth {f : FieldDesc} :
    checkFields [f] = some .fieldWidth ↔ f.name.length ≤ 1 ∧ f.width < 1 := by
  simp only [checkFields]
  by_cases hname : f.name.length > 1
  · simp [hname]
  · simp [hname, Nat.le_of_not_gt hname]

/-- The fields fail with the verdict on the first field that does not pass. -/
theorem checkFields_eq_some {fs : List FieldDesc} {c : ErrCode} :
    checkFields fs = some c ↔
      ∃ (k : Nat) (f : FieldDesc), fs[k]? = some f ∧ checkFields [f] = some c ∧ ∀ g ∈ fs.take k, FieldDescOk g := by
  induction fs with
  | nil => simp [checkFields]
  | cons f fs ih =>
    rw [checkFields_cons, Option.or_eq_some_iff, ih, checkFields_singleton_eq_none]
    constructor
    · rintro (hf | ⟨hok, k, g, hg, hc, hbefore⟩)
      · exact ⟨0, f, rfl, hf, by simp⟩
      · exact ⟨k + 1, g, hg, hc, by simpa using ⟨hok, hbefore⟩⟩
    · rintro ⟨k, g, hg, hc, hbefore⟩
      cases k with
      | zero =>
        obtain rfl : f = g := by simpa using hg
        exact .inl hc
      | succ k =>
        obtain ⟨hok, hrest⟩ : FieldDescOk f ∧ ∀ g ∈ fs.take k, FieldDescOk g := by simpa using hbefore
        exact .inr ⟨hok, k, g, hg, hc, hrest⟩

theorem checkFields_code {fs : List FieldDesc} {c : ErrCode} (h : checkFields fs = some c) :
    c ∈ [ErrCode.fieldName, .fieldWidth] := by
  obtain ⟨-, f, -, hf, -⟩ := checkFields_eq_some.mp h
  simp only [checkFields] at hf
  split at hf
  · cases hf
    decide
  · split at hf
    · cases hf
      decide
    · cases hf

/-! ### The stages of an entry's checks (R93, then R95 and R96, then R97, R98 and R94) -/

/-- The last stage: the fields, then the width sum. -/
def checkWidths (e : EntryDesc) : Option ErrCode :=
  (checkFields e.fields).or (if totalWidth e ≠ 16 then some .widthSum else none)

/-- Whether the prefix has a character other than 0 and 1. -/
def hasBadChar (e : EntryDesc) : Bool := e.bits.toList.any (fun c => decide (c ≠ '0' ∧ c ≠ '1'))

/-- The prefix and what follows it. -/
def checkPrefix (e : EntryDesc) : Option ErrCode :=
  if e.bits.length < 1 ∨ e.bits.length > 16 then some .prefixLength
  else if hasBadChar e then some .prefixChar
  else checkWidths e

/-- The checks of an entry are the two of the mnemonic, then the later stages. -/
theorem checkEntry_eq (earlier : List String) (e : EntryDesc) :
    checkEntry earlier e =
      if e.mnemonic = "" then some .emptyMnemonic
      else if e.mnemonic ∈ earlier then some .dupMnemonic
      else checkPrefix e := by
  simp only [← String.length_eq_zero_iff]
  rfl

theorem hasBadChar_iff {e : EntryDesc} : hasBadChar e = true ↔ ∃ c ∈ e.bits.toList, c ≠ '0' ∧ c ≠ '1' := by
  simp [hasBadChar]

theorem checkWidths_code {e : EntryDesc} {c : ErrCode} (h : checkWidths e = some c) :
    c ∈ [ErrCode.fieldName, .fieldWidth, .widthSum] := by
  obtain hfields | ⟨-, hsum⟩ := Option.or_eq_some_iff.mp h
  · exact List.mem_append_left [ErrCode.widthSum] (checkFields_code hfields)
  · cases (Option.ite_none_right_eq_some.mp hsum).2
    decide

theorem checkPrefix_code {e : EntryDesc} {c : ErrCode} (h : checkPrefix e = some c) :
    c ∈ [ErrCode.prefixLength, .prefixChar, .fieldName, .fieldWidth, .widthSum] := by
  unfold checkPrefix at h
  split at h
  · cases h
    decide
  · split at h
    · cases h
      decide
    · exact List.mem_append_right [ErrCode.prefixLength, .prefixChar] (checkWidths_code h)

/-! ### The first failing check of an entry (R99) -/

theorem checkEntry_eq_emptyMnemonic {earlier : List String} {e : EntryDesc} :
    checkEntry earlier e = some .emptyMnemonic ↔ e.mnemonic = "" := by
  rw [checkEntry_eq]
  refine Ne.ite_eq_left_iff fun h => ?_
  split at h
  · cases h
  · exact absurd (checkPrefix_code h.symm) (by decide)

theorem checkEntry_eq_dupMnemonic {earlier : List String} {e : EntryDesc} :
    checkEntry earlier e = some .dupMnemonic ↔ e.mnemonic ≠ "" ∧ e.mnemonic ∈ earlier := by
  rw [checkEntry_eq]
  by_cases hempty : e.mnemonic = ""
  · simp [hempty]
  · rw [if_neg hempty, Ne.ite_eq_left_iff fun h => absurd (checkPrefix_code h.symm) (by decide)]
    exact (and_iff_right hempty).symm

theorem checkEntry_of_new {earlier : List String} {e : EntryDesc} (hempty : e.mnemonic ≠ "")
    (hnew : e.mnemonic ∉ earlier) : checkEntry earlier e = checkPrefix e := by
  rw [checkEntry_eq, if_neg hempty, if_neg hnew]

theorem checkPrefix_eq_prefixLength {e : EntryDesc} :
    checkPrefix e = some .prefixLength ↔ e.bits.length < 1 ∨ e.bits.length > 16 := by
  refine Ne.ite_eq_left_iff fun h => ?_
  split at h
  · cases h
  · exact absurd (checkWidths_code h.symm) (by decide)

section
variable {e : EntryDesc} (h1 : 1 ≤ e.bits.length) (h16 : e.bits.length ≤ 16)
include h1 h16

theorem checkPrefix_of_length : checkPrefix e = if hasBadChar e then some .prefixChar else checkWidths e :=
  if_neg (by omega)

theorem checkPrefix_eq_prefixChar :
    checkPrefix e = some .prefixChar ↔ ∃ c ∈ e.bits.toList, c ≠ '0' ∧ c ≠ '1' := by
  rw [checkPrefix_of_length h1 h16, Ne.ite_eq_left_iff fun h => absurd (checkWidths_code h.symm) (by decide),
    hasBadChar_iff]

theorem checkPrefix_of_bits (hbits : ∀ c ∈ e.bits.toList, c = '0' ∨ c = '1') : checkPrefix e = checkWidths e := by
  rw [checkPrefix_of_length h1 h16, if_neg]
  rw [hasBadChar_iff]
  rintro ⟨c, hc, hzero, hone⟩
  exact (hbits c hc).elim hzero hone

end

/-- The fields' code is the entry's, unless it is the code of the width sum. -/
theorem checkWidths_eq_some {e : EntryDesc} {c : ErrCode} (hc : c ≠ .widthSum) :
    checkWidths e = some c ↔ checkFields e.fields = some c := by
  simp [checkWidths, Option.or_eq_some_iff, hc.symm]

theorem checkWidths_eq_fieldName {e : EntryDesc} :
    checkWidths e = some .fieldName ↔ ∃ (k : Nat) (f : FieldDesc), e.fields[k]? = some f
      ∧ f.name.length > 1 ∧ ∀ g ∈ e.fields.take k, FieldDescOk g := by
  rw [checkWidths_eq_some (by decide), checkFields_eq_some]
  simp only [checkFields_singleton_eq_fieldName]

theorem checkWidths_eq_fieldWidth {e : EntryDesc} :
    checkWidths e = some .fieldWidth ↔ ∃ (k : Nat) (f : FieldDesc), e.fields[k]? = some f
      ∧ f.name.length ≤ 1 ∧ f.width < 1 ∧ ∀ g ∈ e.fields.take k, FieldDescOk g := by
  rw [checkWidths_eq_some (by decide), checkFields_eq_some]
  simp only [checkFields_singleton_eq_fieldWidth, and_assoc]

theorem checkWidths_eq_widthSum {e : EntryDesc} :
    checkWidths e = some .widthSum ↔ (∀ g ∈ e.fields, FieldDescOk g)
      ∧ (e.bits.length : Int) + (e.fields.map (·.width)).sum ≠ 16 := by
  have hfields : checkFields e.fields ≠ some .widthSum := fun h => absurd (checkFields_code h) (by decide)
  rw [checkWidths, Option.or_eq_some_iff, or_iff_right hfields, checkFields_eq_none, Option.ite_none_right_eq_some,
    and_iff_left rfl, totalWidth]

/-! ### The first failing entry (R99) -/

/-- Entries that pass are left behind, and the first that fails is reported with its own index. -/
theorem checkFrom_eq_some {earlier : List String} {start i : Nat} {d : List EntryDesc} {e : EntryDesc} {c : ErrCode}
    (hbefore : ∀ (j : Nat) (e' : EntryDesc), j < i → d[j]? = some e' →
      checkEntry (earlier ++ (d.take j).map (·.mnemonic)) e' = none)
    (hi : d[i]? = some e) (hc : checkEntry (earlier ++ (d.take i).map (·.mnemonic)) e = some c) :
    checkFrom earlier start d = some (c, start + i) := by
  induction d generalizing earlier start i with
  | nil => simp at hi
  | cons x d ih =>
    cases i with
    | zero =>
      obtain rfl : x = e := by simpa using hi
      have hx : checkEntry earlier x = some c := by simpa using hc
      simp [checkFrom, hx]
    | succ i =>
      have hx : checkEntry earlier x = none := by simpa using hbefore 0 x (Nat.succ_pos i) rfl
      have hrest : checkFrom (earlier ++ [x.mnemonic]) (start + 1) d = some (c, start + 1 + i) := by
        refine ih (fun j e' hj he' => ?_) (by simpa using hi) (by simpa using hc)
        simpa using hbefore (j + 1) e' (Nat.succ_lt_succ hj) (by simpa using he')
      simp [checkFrom, hx, hrest, Nat.add_assoc, Nat.add_comm 1 i]

theorem firstFailure_of_size {limit : Nat} {d : List EntryDesc} (h : d.length > limit) :
    firstFailure limit d = some (.tableTooLarge, 0) := if_pos h

theorem firstFailure_of_le {limit : Nat} {d : List EntryDesc} (h : d.length ≤ limit) :
    firstFailure limit d = checkFrom [] 0 d := if_neg (Nat.not_lt.mpr h)

/-- Settles O35: the size check, the first failing entry and the stages of its checks, each by its own lemma. -/
theorem loadReportsTheFirstFailingCheck : Obligations.LoadReportsTheFirstFailingCheck := by
  refine ⟨fun limit d => firstFailure_of_size, ?_, ?_, fun s d rest c i => step_load_rejected⟩
  · intro limit d i e c hsize hbefore hi hc
    rw [firstFailure_of_le hsize, checkFrom_eq_some (i := i) (by simpa using hbefore) hi (by simpa using hc),
      Nat.zero_add]
  · refine fun earlier e => ⟨checkEntry_eq_emptyMnemonic, checkEntry_eq_dupMnemonic, fun hempty hnew => ?_⟩
    rw [checkEntry_of_new hempty hnew]
    refine ⟨checkPrefix_eq_prefixLength, fun h1 h16 => ⟨checkPrefix_eq_prefixChar h1 h16, fun hbits => ?_⟩⟩
    rw [checkPrefix_of_bits h1 h16 hbits]
    exact ⟨checkWidths_eq_fieldName, checkWidths_eq_fieldWidth, checkWidths_eq_widthSum⟩

end Sys2Proof.Proofs
end

section
/-! A stored prefix, its length and value beside its characters (40_table_load.md R104, R105). -/

namespace Sys2Proof.Proofs

open Sys2Proof Sys2Proof.Machine Sys2Proof.Laws

/-- A bit string is read back from its value and its length, leading zeros included. -/
theorem bitsOf_val (s : List Bool) : bitsOf (val s) s.length = s := by
  induction s using List.reverseRecOn with
  | nil => rfl
  | append_singleton s b ih =>
    have hhigh : (2 * val s + b.toNat) / 2 ^ 1 = val s := by
      have := Bool.toNat_lt b
      omega
    have hlow : bitsOf (2 * val s + b.toNat) 1 = [b] := by
      cases b <;> simp [bitsOf, Nat.testBit_zero]
    rw [List.length_append, List.length_singleton, val_append_singleton, bitsOf_add, hhigh, hlow, ih]

/-- The bit string that a prefix of a description writes. -/
def descBits (e : EntryDesc) : List Bool := e.bits.toList.map (fun c => decide (c = '1'))

theorem length_descBits (e : EntryDesc) : (descBits e).length = e.bits.length := by
  rw [descBits, List.length_map, String.length_toList]

theorem bitsVal_eq_val (e : EntryDesc) : bitsVal e.bits = val (descBits e) := by
  simp only [bitsVal, val, descBits, List.foldl_map, Bool.toNat, Bool.cond_decide]

theorem prefixBits_storedEntry (e : EntryDesc) : prefixBits (storedEntry e) = descBits e := by
  calc prefixBits (storedEntry e) = bitsOf (bitsVal e.bits) e.bits.length := rfl
    _ = bitsOf (val (descBits e)) (descBits e).length := by rw [bitsVal_eq_val, length_descBits]
    _ = descBits e := bitsOf_val _

/-- The prefixes of R105 with one value and three lengths. -/
theorem zeros_share_value : (bitsVal "0", "0".length) = (0, 1) ∧ (bitsVal "00", "00".length) = (0, 2)
    ∧ (bitsVal "000", "000".length) = (0, 3) := by
  decide

/-- Settles O36: a prefix is stored as its length and its value, and those two determine the characters. -/
theorem storedPrefixKeepsLeadingZeros : Obligations.StoredPrefixKeepsLeadingZeros :=
  ⟨fun e _ _ _ => ⟨rfl, bitsVal_eq_val e, prefixBits_storedEntry e⟩,
    fun _ _ => by simpa only [storedEntry] using zeros_share_value⟩

end Sys2Proof.Proofs
end

section
/-! The match predicate as the character comparison of R111 (41_decode.md): what the comparison decides, and that a
match reads the leading bits alone. -/

namespace Sys2Proof.Proofs

open Sys2Proof Sys2Proof.Machine Sys2Proof.Laws

/-- The comparison that stops at the first mismatch succeeds exactly when the first string begins the second. -/
theorem compareBits_fst_iff (p s : List Bool) : (compareBits p s).1 = true ↔ p <+: s := by
  induction p generalizing s with
  | nil => simp [compareBits]
  | cons a p ih =>
    cases s with
    | nil => simp [compareBits]
    | cons b s =>
      rw [List.cons_prefix_cons, compareBits]
      by_cases hab : a = b
      · simp [hab, ih]
      · simp [hab]

/-- Words that agree from bit `q` up agree without the `q` bits below. -/
theorem div_eq_of_leading_bits_eq {w w' : Word} {q : Nat}
    (h : ∀ k, q ≤ k → k < 16 → w.getLsbD k = w'.getLsbD k) : w.toNat / 2 ^ q = w'.toNat / 2 ^ q := by
  apply Nat.eq_of_testBit_eq
  intro i
  rw [Nat.testBit_div_two_pow, Nat.testBit_div_two_pow, BitVec.testBit_toNat, BitVec.testBit_toNat]
  by_cases hi : i + q < 16
  · exact h (i + q) (Nat.le_add_left q i) hi
  · rw [BitVec.getLsbD_of_ge w _ (by omega), BitVec.getLsbD_of_ge w' _ (by omega)]

/-- Settles O8: the slice, the prefix of the string and the comparison are one test, of the bits above `16 - plen`. -/
theorem matchIsTheCharacterComparison : Obligations.MatchIsTheCharacterComparison := by
  intro e w he
  refine ⟨beq_iff_eq, matchesWord_iff_prefix w he, ?_, fun w' hbits => ?_⟩
  · rw [Bool.eq_iff_iff, compareBits_fst_iff, matchesWord_iff_prefix w he]
  · rw [Bool.eq_iff_iff, matchesWord_iff_div w' he, matchesWord_iff_div w he, div_eq_of_leading_bits_eq hbits]

end Sys2Proof.Proofs
end

section
/-! The three outcomes of DECODE for every table and word (41_decode.md R115 to R118, R122, R123): which winners each
outcome stands for, and what follows for nested and for identical prefixes. -/

namespace Sys2Proof.Proofs

open Sys2Proof Sys2Proof.Machine Sys2Proof.Laws

/-! ### Candidates and winners -/

/-- There is no candidate exactly when no entry matches (R112). -/
theorem candidates_eq_nil_iff {t : List Entry} {w : Word} :
    candidates t w = [] ↔ ∀ e ∈ t, matchesWord e w = false := by
  rw [List.eq_nil_iff_forall_not_mem]
  constructor
  · intro h e he
    obtain ⟨i, hi⟩ := List.mem_iff_getElem?.mp he
    exact Bool.eq_false_iff.mpr fun hm => h (e, i) (mem_candidates.mpr ⟨hi, hm⟩)
  · rintro h ⟨e, i⟩ hc
    obtain ⟨hi, hm⟩ := mem_candidates.mp hc
    exact absurd hm (by simp [h e (List.mem_of_getElem? hi)])

/-- The winners are the matching entries of length `L` (R115). -/
theorem mem_winners_iff_plen {t : List Entry} {w : Word} {L k : Nat} {e : Entry} (hL : GreatestLength t w L) :
    (e, k) ∈ winners (candidates t w) ↔ t[k]? = some e ∧ matchesWord e w = true ∧ e.plen = L := by
  obtain ⟨⟨a, ha, hma, rfl⟩, hmax⟩ := hL
  rw [mem_winners]
  refine and_congr_right fun hk => and_congr_right fun hm => ⟨fun h => ?_, fun h j e' hj hm' => ?_⟩
  · obtain ⟨j, hj⟩ := List.mem_iff_getElem?.mp ha
    exact Nat.le_antisymm (hmax e (List.mem_of_getElem? hk) hm) (h j a hj hma)
  · exact h ▸ hmax e' (List.mem_of_getElem? hj) hm'

/-- Two winners or more have two different indices. -/
theorem exists_winners_lt {t : List Entry} {w : Word} (h : 2 ≤ (winners (candidates t w)).length) :
    ∃ A B i j, (A, i) ∈ winners (candidates t w) ∧ (B, j) ∈ winners (candidates t w) ∧ i < j := by
  match hw : winners (candidates t w) with
  | [] => simp [hw] at h
  | [_] => simp [hw] at h
  | (A, i) :: (B, j) :: rest =>
    have hasc := hw ▸ winners_ascending t w
    exact ⟨A, B, i, j, by simp, by simp, List.rel_of_pairwise_cons hasc List.mem_cons_self⟩

/-- The indices of a tie stand in strictly ascending order (R117). -/
theorem tied_ascending (t : List Entry) (w : Word) :
    ((winners (candidates t w)).map (·.2)).Pairwise (· < ·) :=
  List.pairwise_map.mpr (winners_ascending t w)

theorem mem_tied {t : List Entry} {w : Word} {k : Nat} :
    k ∈ (winners (candidates t w)).map (·.2) ↔ ∃ e, (e, k) ∈ winners (candidates t w) := by
  simp

/-! ### What each outcome says about the winners -/

theorem decodeOutcome_eq_unknownOpcode_iff {t : List Entry} {w : Word} :
    decodeOutcome t w = .unknownOpcode ↔ candidates t w = [] := by
  obtain ⟨hnil, hout⟩ | ⟨_, _, hwin, hout⟩ | ⟨htwo, hout⟩ := decodeOutcome_cases t w
  · simp [hnil, hout]
  · simp [← winners_eq_nil, hwin, hout]
  · have hne : winners (candidates t w) ≠ [] := List.ne_nil_of_length_pos (by omega)
    simp [← winners_eq_nil, hne, hout]

theorem winner_of_decoded {t : List Entry} {w : Word} {i : Nat} {mnemonic : String} {raw : List Word} {map : FieldMap}
    (h : decodeOutcome t w = .decoded i mnemonic raw map) : ∃ e, winners (candidates t w) = [(e, i)] := by
  obtain ⟨-, hout⟩ | ⟨e, i', hwin, hout⟩ | ⟨-, hout⟩ := decodeOutcome_cases t w
  · cases hout.symm.trans h
  · cases hout.symm.trans h
    exact ⟨e, hwin⟩
  · cases hout.symm.trans h

theorem decodeOutcome_eq_ambiguous_iff {t : List Entry} {w : Word} {tied : List Nat} :
    decodeOutcome t w = .ambiguousEncoding tied ↔
      2 ≤ (winners (candidates t w)).length ∧ (winners (candidates t w)).map (·.2) = tied := by
  obtain ⟨hnil, hout⟩ | ⟨_, _, hwin, hout⟩ | ⟨htwo, hout⟩ := decodeOutcome_cases t w
  · simp [hout, winners_eq_nil.mpr hnil]
  · simp [hout, hwin]
  · simp [hout, htwo]

/-- Two winners with different indices are a tie (R117). -/
theorem ambiguous_of_winners_ne {t : List Entry} {w : Word} {i j : Nat} {A B : Entry}
    (hA : (A, i) ∈ winners (candidates t w)) (hB : (B, j) ∈ winners (candidates t w)) (hij : i ≠ j) :
    decodeOutcome t w = .ambiguousEncoding ((winners (candidates t w)).map (·.2)) := by
  obtain ⟨hnil, -⟩ | ⟨_, _, hwin, -⟩ | ⟨-, hout⟩ := decodeOutcome_cases t w
  · exact absurd (winners_eq_nil.mpr hnil) (List.ne_nil_of_mem hA)
  · simp only [hwin, List.mem_singleton, Prod.mk.injEq] at hA hB
    exact absurd (hA.2.trans hB.2.symm) hij
  · exact hout

/-- A matching entry without a rival is the only winner, so it is decoded (R118). -/
theorem decoded_of_noRival {t : List Entry} {w : Word} {i : Nat} {e : Entry} (hi : t[i]? = some e)
    (hm : matchesWord e w = true) (hrival : NoRival t i e.plen w) :
    decodeOutcome t w = .decoded i e.mnemonic (rawFields e w) (fieldMap e w) := by
  have hself : (e, i) ∈ winners (candidates t w) := by
    refine mem_winners.mpr ⟨hi, hm, fun j e' hj hm' => ?_⟩
    by_cases hji : j = i
    · rw [hji, hi] at hj
      exact (Option.some.inj hj) ▸ Nat.le_refl _
    · exact (hrival j e' hj hji hm').le
  have honly : ∀ (B : Entry) (j : Nat), (B, j) ∈ winners (candidates t w) → j = i := by
    intro B j hB
    obtain ⟨hj, hmB, hmax⟩ := mem_winners.mp hB
    by_contra hji
    exact absurd (hmax i e hi hm) (Nat.not_le.mpr (hrival j B hj hji hmB))
  obtain ⟨hnil, -⟩ | ⟨e', i', hwin, hout⟩ | ⟨htwo, -⟩ := decodeOutcome_cases t w
  · exact absurd (winners_eq_nil.mpr hnil) (List.ne_nil_of_mem hself)
  · obtain ⟨rfl, rfl⟩ : e = e' ∧ i = i' := by simpa [hwin] using hself
    exact hout
  · obtain ⟨A, B, j, k, hA, hB, hlt⟩ := exists_winners_lt htwo
    exact absurd ((honly A j hA).trans (honly B k hB).symm) hlt.ne

/-! ### Prefixes of matching entries -/

@[simp] theorem length_prefixBits (e : Entry) : (prefixBits e).length = e.plen := length_bitsOf _ _

/-- Entries of one length that match one word have one prefix (R123). -/
theorem prefixBits_eq_of_plen_eq {A B : Entry} {w : Word} (hA : matchesWord A w = true) (hB : matchesWord B w = true)
    (hlen : A.plen = B.plen) : prefixBits A = prefixBits B := by
  rw [matchesWord, beq_iff_eq] at hA hB
  rw [prefixBits, prefixBits, ← hA, ← hB, hlen]

/-- A strict prefix is shorter. -/
theorem plen_lt_of_strict_prefix {A B : Entry} (hpre : prefixBits A <+: prefixBits B)
    (hne : prefixBits A ≠ prefixBits B) : A.plen < B.plen := by
  have hle : A.plen ≤ B.plen := by simpa using hpre.length_le
  exact lt_of_le_of_ne hle fun hlen => hne (hpre.eq_of_length (by simpa using hlen))

/-! ### The obligations -/

/-- Settles O12: the outcome is UNKNOWN_OPCODE exactly when there is no candidate. -/
theorem noMatchIsUnknownOpcode : Obligations.NoMatchIsUnknownOpcode :=
  fun _ _ => decodeOutcome_eq_unknownOpcode_iff.trans candidates_eq_nil_iff

/-- Settles O13: the matching entries of length `L` are the winners, and two of them are a tie. -/
theorem tieIsAmbiguousEncoding : Obligations.TieIsAmbiguousEncoding := by
  intro t w L i j A B hL hij hi hmA hA hj hmB hB
  have hwinA := (mem_winners_iff_plen hL).mpr ⟨hi, hmA, hA⟩
  have hwinB := (mem_winners_iff_plen hL).mpr ⟨hj, hmB, hB⟩
  refine ⟨_, ambiguous_of_winners_ne hwinA hwinB hij, tied_ascending t w, fun k => ?_⟩
  simp only [mem_tied, mem_winners_iff_plen hL]

/-- Settles O14: the hypothesis on the other matching entries is `NoRival`, and an entry without a rival is decoded. -/
theorem uniqueLongestMatchIsDecoded : Obligations.UniqueLongestMatchIsDecoded :=
  fun _ _ _ _ => decoded_of_noRival

/-- Settles O16: the entry that is decoded is a longest match, and a strict prefix is shorter. -/
theorem longerPrefixNeverResolvesToShorter : Obligations.LongerPrefixNeverResolvesToShorter := by
  intro t w i j A B hi hj hmA hmB hpre hne mnemonic raw map hout
  obtain ⟨e, hwin⟩ := winner_of_decoded hout
  obtain ⟨he, -, hmax⟩ := mem_winners.mp (hwin ▸ List.mem_singleton_self (e, i))
  obtain rfl : A = e := Option.some.inj (hi.symm.trans he)
  exact absurd (hmax j B hj hmB) (Nat.not_le.mpr (plen_lt_of_strict_prefix hpre hne))

/-- Settles O17: tied entries have one length and match one word; and two longest matches are a tie. -/
theorem tiesNeedIdenticalPrefixes : Obligations.TiesNeedIdenticalPrefixes := by
  constructor
  · intro t w tied hout
    obtain ⟨htwo, rfl⟩ := decodeOutcome_eq_ambiguous_iff.mp hout
    refine ⟨by simpa using htwo, fun i hi j hj => ?_⟩
    obtain ⟨A, hA⟩ := mem_tied.mp hi
    obtain ⟨B, hB⟩ := mem_tied.mp hj
    obtain ⟨hgetA, hmA, hmaxA⟩ := mem_winners.mp hA
    obtain ⟨hgetB, hmB, hmaxB⟩ := mem_winners.mp hB
    have hlen : A.plen = B.plen := Nat.le_antisymm (hmaxB i A hgetA hmA) (hmaxA j B hgetB hmB)
    exact ⟨A, B, hgetA, hgetB, hmA, hmB, prefixBits_eq_of_plen_eq hmA hmB hlen⟩
  · intro t w i j A B hi hj hij hprefix hmA hmB hmax
    have hL : GreatestLength t w A.plen := ⟨⟨A, List.mem_of_getElem? hi, hmA, rfl⟩, hmax⟩
    have hlen : B.plen = A.plen := by simpa using (congrArg List.length hprefix).symm
    have hwinA := (mem_winners_iff_plen hL).mpr ⟨hi, hmA, rfl⟩
    have hwinB := (mem_winners_iff_plen hL).mpr ⟨hj, hmB, hlen⟩
    exact ⟨_, ambiguous_of_winners_ne hwinA hwinB hij, mem_tied.mpr ⟨A, hwinA⟩, mem_tied.mpr ⟨B, hwinB⟩⟩

end Sys2Proof.Proofs
end

section
/-! The words of R124 (41_decode.md): an entry's prefix with every field 0, or with one field at its greatest value. -/

namespace Sys2Proof.Proofs

open Sys2Proof Sys2Proof.Machine Sys2Proof.Laws

/-- The word that has the prefix of `e` and below it the bits of `v`. -/
def prefixWord (e : Entry) (v : Nat) : Word := BitVec.ofNat 16 (e.pval * 2 ^ (16 - e.plen) + v)

theorem zeroWord_eq_prefixWord (e : Entry) : zeroWord e = prefixWord e 0 := rfl

theorem maxWord_eq_prefixWord (e : Entry) (j width : Nat) :
    maxWord e j width = prefixWord e ((2 ^ width - 1) * 2 ^ (16 - fieldStart e (j + 1))) := rfl

/-- Bits that lie below the prefix leave it in place: nothing is cut off at 16 bits. -/
theorem prefixWord_toNat {e : Entry} {v : Nat} (he : e.wf = true) (hv : v < 2 ^ (16 - e.plen)) :
    (prefixWord e v).toNat = e.pval * 2 ^ (16 - e.plen) + v := by
  obtain ⟨-, h16, hval, -⟩ := wf_iff.mp he
  rw [prefixWord, BitVec.toNat_ofNat]
  refine Nat.mod_eq_of_lt ?_
  calc e.pval * 2 ^ (16 - e.plen) + v < (e.pval + 1) * 2 ^ (16 - e.plen) := by rw [Nat.succ_mul]; omega
    _ ≤ 2 ^ e.plen * 2 ^ (16 - e.plen) := Nat.mul_le_mul_right _ hval
    _ = 2 ^ 16 := by rw [← pow_add, Nat.add_sub_cancel' h16]

theorem matchesWord_prefixWord {e : Entry} {v : Nat} (he : e.wf = true) (hv : v < 2 ^ (16 - e.plen)) :
    matchesWord e (prefixWord e v) = true := by
  rw [matchesWord_iff_div _ he, prefixWord_toNat he hv, Nat.add_comm, Nat.add_mul_div_right _ _ (Nat.two_pow_pos _),
    Nat.div_eq_of_lt hv, Nat.zero_add]

/-- A field of that word holds the bits of `v` at its position: the prefix does not reach into it. -/
theorem rawFields_prefixWord {e : Entry} {v j : Nat} {f : Field} (he : e.wf = true) (hv : v < 2 ^ (16 - e.plen))
    (hf : e.fields[j]? = some f) :
    (rawFields e (prefixWord e v))[j]? =
      some (BitVec.ofNat 16 (v / 2 ^ (16 - fieldStart e (j + 1)) % 2 ^ f.width)) := by
  obtain ⟨-, -, hend⟩ := field_bounds he hf
  have hstart : e.plen ≤ fieldStart e j := fieldStart_zero e ▸ fieldStart_mono e (Nat.zero_le j)
  have hsplit : 16 - e.plen = (fieldStart e j - e.plen) + f.width + (16 - fieldStart e (j + 1)) := by
    rw [fieldStart_succ hf]
    omega
  rw [rawFields_getElem? _ hf, slice_field _ he hf, prefixWord_toNat he hv, Nat.add_comm, hsplit, pow_add, pow_add,
    ← Nat.mul_assoc, Nat.add_mul_div_right _ _ (Nat.two_pow_pos _), ← Nat.mul_assoc, Nat.add_mul_mod_self_right]

@[simp] theorem length_extractFrom (w : Word) (c : Nat) (fields : List Field) :
    (extractFrom w c fields).length = fields.length := by
  induction fields generalizing c with
  | nil => rfl
  | cons f fields ih => simp [extractFrom, ih]

@[simp] theorem length_rawFields (e : Entry) (w : Word) : (rawFields e w).length = e.fields.length :=
  length_extractFrom _ _ _

theorem rawFields_zeroWord {e : Entry} (he : e.wf = true) :
    rawFields e (zeroWord e) = List.replicate e.fields.length 0 := by
  refine List.ext_getElem? fun j => ?_
  cases hf : e.fields[j]? with
  | none =>
    have hj : e.fields.length ≤ j := List.getElem?_eq_none_iff.mp hf
    rw [List.getElem?_eq_none (by simpa using hj), List.getElem?_eq_none (by simpa using hj)]
  | some f =>
    obtain ⟨hj, -⟩ := List.getElem?_eq_some_iff.mp hf
    rw [zeroWord_eq_prefixWord, rawFields_prefixWord he (Nat.two_pow_pos _) hf, List.getElem?_replicate_of_lt hj]
    simp

/-- A field at its greatest value fits below the prefix. -/
theorem maxField_lt {e : Entry} {j : Nat} {f : Field} (he : e.wf = true) (hf : e.fields[j]? = some f) :
    (2 ^ f.width - 1) * 2 ^ (16 - fieldStart e (j + 1)) < 2 ^ (16 - e.plen) := by
  obtain ⟨-, -, hend⟩ := field_bounds he hf
  have hstart : e.plen ≤ fieldStart e j := fieldStart_zero e ▸ fieldStart_mono e (Nat.zero_le j)
  have hpos := Nat.two_pow_pos f.width
  calc (2 ^ f.width - 1) * 2 ^ (16 - fieldStart e (j + 1))
      < 2 ^ f.width * 2 ^ (16 - fieldStart e (j + 1)) :=
        Nat.mul_lt_mul_of_pos_right (by omega) (Nat.two_pow_pos _)
    _ = 2 ^ (f.width + (16 - fieldStart e (j + 1))) := (pow_add ..).symm
    _ ≤ 2 ^ (16 - e.plen) := Nat.pow_le_pow_right (by decide) (by rw [fieldStart_succ hf]; omega)

/-- Settles O18: both words match the entry, which has no rival, and their fields are read from below the prefix. -/
theorem zeroAndMaximumFieldsRoundTrip : Obligations.ZeroAndMaximumFieldsRoundTrip := by
  intro t i e hi he
  refine ⟨fun hrival => ?_, fun j f hf hrival => ?_⟩
  · rw [← rawFields_zeroWord he]
    exact decoded_of_noRival hi (matchesWord_prefixWord he (Nat.two_pow_pos _)) hrival
  · have hlt := maxField_lt he hf
    refine ⟨_, decoded_of_noRival hi (matchesWord_prefixWord he hlt) hrival, ?_⟩
    have hpos := Nat.two_pow_pos f.width
    rw [maxWord_eq_prefixWord, rawFields_prefixWord he hlt hf, Nat.mul_div_cancel _ (Nat.two_pow_pos _),
      Nat.mod_eq_of_lt (by omega)]

end Sys2Proof.Proofs
end

section
/-! The field map of R114 (41_decode.md): what an assignment does to a look-up and to the keys, and the map that all of
them build. -/

namespace Sys2Proof.Proofs

open Sys2Proof Sys2Proof.Machine Sys2Proof.Laws

theorem lookup_cons_eq_ite (name key : Option Char) (v : Word) (m : FieldMap) :
    List.lookup name ((key, v) :: m) = if name = key then some v else m.lookup name := by
  by_cases h : name = key
  · simp [h]
  · simp [List.lookup_cons, beq_eq_false_iff_ne.mpr h, h]

/-- For a look-up, assigning a name is the same as writing the pair in front. -/
theorem lookup_assign (key name : Option Char) (v : Word) (m : FieldMap) :
    (assign key v m).lookup name = List.lookup name ((key, v) :: m) := by
  induction m with
  | nil => rfl
  | cons p m ih =>
    obtain ⟨k, u⟩ := p
    rw [assign]
    by_cases hk : k = key
    · simp only [hk, if_true, lookup_cons_eq_ite]
      split <;> rfl
    · rw [if_neg hk, lookup_cons_eq_ite name k, ih]
      simp only [lookup_cons_eq_ite]
      by_cases hname : name = k
      · simp [hname, hk]
      · simp [hname]

/-- A look-up in the built map finds the last assignment of the name. -/
theorem lookup_buildMap (name : Option Char) (fields : List Field) (raw : List Word) (m : FieldMap) :
    (buildMap fields raw m).lookup name =
      (((fields.map (·.name)).zip raw).reverse ++ m).lookup name := by
  induction fields generalizing raw m with
  | nil => simp [buildMap]
  | cons f fields ih =>
    cases raw with
    | nil => simp [buildMap]
    | cons v raw => simp [buildMap, ih, List.lookup_append, lookup_assign]

/-- A name that is already a key keeps its place, and a new one comes last. -/
theorem keys_assign (key : Option Char) (v : Word) (m : FieldMap) :
    (assign key v m).map (·.1) = if key ∈ m.map (·.1) then m.map (·.1) else m.map (·.1) ++ [key] := by
  induction m with
  | nil => rfl
  | cons p m ih =>
    obtain ⟨k, u⟩ := p
    rw [assign]
    by_cases hk : k = key
    · simp [hk]
    · simp only [if_neg hk, List.map_cons, ih, List.mem_cons, Ne.symm hk, false_or]
      split <;> rfl

theorem removeAll_append_singleton (names keys : List (Option Char)) (key : Option Char) :
    names.removeAll (keys ++ [key]) = (names.removeAll keys).filter (fun name => !name == key) := by
  simp [List.removeAll, List.filter_filter, Bool.and_comm, beq_eq_decide]

/-- The keys of the built map: those there were, then the new names in order of first occurrence (D25). -/
theorem keys_buildMap (fields : List Field) (raw : List Word) (m : FieldMap) (hlen : raw.length = fields.length) :
    (buildMap fields raw m).map (·.1) =
      m.map (·.1) ++ ((fields.map (·.name)).removeAll (m.map (·.1))).eraseDups := by
  induction fields generalizing raw m with
  | nil => simp [buildMap]
  | cons f fields ih =>
    cases raw with
    | nil => simp at hlen
    | cons v raw =>
      rw [buildMap, ih raw _ (by simpa using hlen), keys_assign, List.map_cons, List.cons_removeAll]
      by_cases hkey : f.name ∈ m.map (·.1)
      · rw [if_pos hkey, if_neg (by simpa using hkey)]
      · rw [if_neg hkey, if_pos (by simpa using hkey), removeAll_append_singleton, List.eraseDups_cons,
          List.append_assoc, List.singleton_append]

/-- Settles O19: the map is built from the empty one, so its look-ups and keys are those of its assignments. -/
theorem laterFieldOfOneNameWins : Obligations.LaterFieldOfOneNameWins := by
  intro e w
  refine ⟨fun name => ?_, ?_⟩
  · rw [fieldMap, lookup_buildMap, List.append_nil]
  · rw [fieldMap, keys_buildMap _ _ _ (length_rawFields e w), List.map_nil, List.removeAll_nil, List.nil_append]

end Sys2Proof.Proofs
end

section
/-! DECODE writes no state and answers from the word and the live table alone (41_decode.md R121). -/

namespace Sys2Proof.Proofs

open Sys2Proof Sys2Proof.Machine Sys2Proof.Laws

/-- Settles O23: with no RESET waiting a step on a DECODE is one `decodeRequest` of a word that the requested word alone
determines, and its answer is the outcome of that word in the live table. -/
theorem decodeIsPure : Obligations.DecodeIsPure := by
  constructor
  · intro s t seq w rest hr hwaits hstep
    obtain ⟨v, hv⟩ := runWord_is_decodeRequest w
    rw [step_decode hr hwaits, hv] at hstep
    cases hstep
    exact sameBlock_decodeRequest v s
  · intro s₁ s₂ seq₁ seq₂ w rest₁ rest₂ hr₁ hr₂ hwaits₁ hwaits₂ hs₁ hs₂ htable
    obtain ⟨v, hv⟩ := runWord_is_decodeRequest w
    have hlive : s₂.liveTable = s₁.liveTable := htable.symm
    refine ⟨decodeOutcome s₁.liveTable v, decodeRequest v s₁, decodeRequest v s₂, ?_, ?_, ?_, ?_⟩
    · rw [step_decode hr₁ hwaits₁, hv]
    · rw [step_decode hr₂ hwaits₂, hv]
    · simp [decodeRequest_loaded v hs₁ hr₁]
    · simp [decodeRequest_loaded v hs₂ hr₂, hlive]

end Sys2Proof.Proofs
end

section
/-! REF31 answers every instruction's word with the response its rule states (42_reference_table.md R142 to R172): the
entry of its row matches and, as no prefix of REF31 begins another, is decoded; its fields are the operands. -/

namespace Sys2Proof.Proofs

open Sys2Proof Sys2Proof.Machine Sys2Proof.Laws

/-! ### A matching entry of a prefix-free table -/

theorem noRival_of_prefixFree {t : List Entry} {w : Word} {i : Nat} {e : Entry} (len : Nat)
    (hwf : t.all Entry.wf = true) (hfree : PrefixFree t) (hi : t[i]? = some e) (hm : matchesWord e w = true) :
    NoRival t i len w :=
  fun _ _ hj hji hm' => absurd (index_eq_of_matchesWord hwf hfree hj hi hm' hm) hji

/-- The entry of REF31 that matches a word is the one it decodes to (R68, R118). -/
theorem decodeOutcome_ref31Table_of_matchesWord {w : Word} {i : Nat} {e : Entry} (hi : ref31Table[i]? = some e)
    (hm : matchesWord e w = true) :
    decodeOutcome ref31Table w = .decoded i e.mnemonic (rawFields e w) (fieldMap e w) :=
  decoded_of_noRival hi hm (noRival_of_prefixFree e.plen ref31Table_wf prefixFree_ref31Table hi hm)

/-! ### The entries of the three formats and the fields they read (R64 to R66) -/

def fdaEntry (mnemonic : String) (p : Nat) : Entry := ⟨mnemonic, 6, p, [⟨some 'd', 1⟩, ⟨some 'a', 1⟩, ⟨some 'f', 8⟩]⟩

def faEntry (mnemonic : String) (p : Nat) : Entry := ⟨mnemonic, 7, p, [⟨some 'a', 1⟩, ⟨some 'f', 8⟩]⟩

def f12Entry (mnemonic : String) (p : Nat) : Entry := ⟨mnemonic, 4, p, [⟨none, 12⟩]⟩

/-- An entry of REF31 holds a prefix value that fits its prefix (R21). -/
theorem pval_lt_of_ref31Table {i : Nat} {e : Entry} (hi : ref31Table[i]? = some e) : e.pval < 2 ^ e.plen := by
  obtain ⟨-, -, hval, -⟩ := wf_iff.mp (List.all_eq_true.mp ref31Table_wf e (List.mem_of_getElem? hi))
  exact hval

theorem rawFields_fdaEntry {p : Nat} (hp : p < 64) (mnemonic : String) (d a : BitVec 1) (f : BitVec 8) :
    rawFields (fdaEntry mnemonic p) (packFda p d a f) = [d.setWidth 16, a.setWidth 16, f.setWidth 16] := by
  have := bit_le d
  have := bit_le a
  have := f.isLt
  have hd : slice (packFda p d a f) 9 9 = d.toNat := by rw [slice, packFda_toNat hp]; omega
  have ha : slice (packFda p d a f) 8 8 = a.toNat := by rw [slice, packFda_toNat hp]; omega
  have hf : slice (packFda p d a f) 7 0 = f.toNat := by rw [slice, packFda_toNat hp]; omega
  simp [rawFields, fdaEntry, extractFrom, hd, ha, hf]

theorem rawFields_faEntry {p : Nat} (hp : p < 128) (mnemonic : String) (a : BitVec 1) (f : BitVec 8) :
    rawFields (faEntry mnemonic p) (packFa p a f) = [a.setWidth 16, f.setWidth 16] := by
  have := bit_le a
  have := f.isLt
  have ha : slice (packFa p a f) 8 8 = a.toNat := by rw [slice, packFa_toNat hp]; omega
  have hf : slice (packFa p a f) 7 0 = f.toNat := by rw [slice, packFa_toNat hp]; omega
  simp [rawFields, faEntry, extractFrom, ha, hf]

theorem rawFields_f12Entry {p : Nat} (hp : p < 16) (mnemonic : String) (src : BitVec 12) :
    rawFields (f12Entry mnemonic p) (packF12 p src) = [src.setWidth 16] := by
  have := src.isLt
  have hsrc : slice (packF12 p src) 11 0 = src.toNat := by rw [slice, packF12_toNat hp]; omega
  simp [rawFields, f12Entry, extractFrom, hsrc]

/-! ### The response to an instruction's word -/

theorem decodeOutcome_packFda {k p : Nat} {mnemonic : String} (hk : ref31Table[k]? = some (fdaEntry mnemonic p))
    (d a : BitVec 1) (f : BitVec 8) :
    decodeOutcome ref31Table (packFda p d a f) = fdaOutcome k mnemonic d a f := by
  have hp : p < 64 := pval_lt_of_ref31Table hk
  rw [decodeOutcome_ref31Table_of_matchesWord hk (beq_iff_eq.mpr (fda_leadingBits hp d a f)), fieldMap,
    rawFields_fdaEntry hp]
  rfl

theorem decodeOutcome_packFa {k p : Nat} {mnemonic : String} (hk : ref31Table[k]? = some (faEntry mnemonic p))
    (a : BitVec 1) (f : BitVec 8) : decodeOutcome ref31Table (packFa p a f) = faOutcome k mnemonic a f := by
  have hp : p < 128 := pval_lt_of_ref31Table hk
  rw [decodeOutcome_ref31Table_of_matchesWord hk (beq_iff_eq.mpr (fa_leadingBits hp a f)), fieldMap,
    rawFields_faEntry hp]
  rfl

theorem decodeOutcome_packF12 {k p : Nat} {mnemonic : String} (hk : ref31Table[k]? = some (f12Entry mnemonic p))
    (src : BitVec 12) : decodeOutcome ref31Table (packF12 p src) = f12Outcome k mnemonic src := by
  have hp : p < 16 := pval_lt_of_ref31Table hk
  rw [decodeOutcome_ref31Table_of_matchesWord hk (beq_iff_eq.mpr (f12_leadingBits hp src)), fieldMap,
    rawFields_f12Entry hp]
  rfl

/-- Under REF31 the encoded word of an instruction gets the response its rule states (R142 to R172). -/
theorem decodeOutcome_encode (i : Instr) : decodeOutcome ref31Table (encode i) = ref31Outcome i := by
  cases i with
  | addwf d a f | addwfc d a f | andwf d a f | comf d a f | decf d a f | decfsz d a f | dcfsnz d a f | incf d a f
  | incfsz d a f | infsnz d a f | iorwf d a f | movf d a f | rlcf d a f | rlncf d a f | rrcf d a f | rrncf d a f
  | subfwb d a f | subwf d a f | subwfb d a f | swapf d a f | xorwf d a f => exact decodeOutcome_packFda rfl d a f
  | clrf a f | cpfseq a f | cpfsgt a f | cpfslt a f | movwf a f | mulwf a f | negf a f | setf a f
  | tstfsz a f => exact decodeOutcome_packFa rfl a f
  | movff src => exact decodeOutcome_packF12 rfl src

/-! ### An instruction with REF31 loaded -/

/-- With REF31 loaded the live table is REF31 whole. -/
theorem liveTable_of_holdsRef31 {s : State} (h : HoldsRef31 s) : s.liveTable = ref31Table := by
  have hlen : ref31Table.length = 31 := rfl
  rw [State.liveTable, h.table, h.count, ← hlen, List.take_length]

/-- With REF31 loaded an instruction takes the oldest DECODE away and answers it with the response its rule states. -/
theorem exec_of_holdsRef31 {s : State} {seq : Nat} {w : Word} {rest : List Request} (h : HoldsRef31 s)
    (hr : s.requests = .decode seq w :: rest) (i : Instr) :
    exec i s = .next { s with
      requests := rest, responses := s.responses ++ [.decode seq (ref31Outcome i)] } := by
  rw [exec_eq_decodeRequest, decodeRequest_loaded _ h.loaded hr, liveTable_of_holdsRef31 h, decodeOutcome_encode,
    finish_some_eq _ hr]

/-- Settles O28: each entry is an instance of `exec_of_holdsRef31`. -/
theorem arithmeticEntriesDecode : Obligations.ArithmeticEntriesDecode := by
  intro s seq w rest d a f h hr
  have hexec := exec_of_holdsRef31 h hr
  exact ⟨hexec (.addwf d a f), hexec (.addwfc d a f), hexec (.decf d a f), hexec (.incf d a f), hexec (.mulwf a f),
    hexec (.negf a f), hexec (.subfwb d a f), hexec (.subwf d a f), hexec (.subwfb d a f)⟩

/-- Settles O29: each entry is an instance of `exec_of_holdsRef31`. -/
theorem logicEntriesDecode : Obligations.LogicEntriesDecode := by
  intro s seq w rest d a f h hr
  have hexec := exec_of_holdsRef31 h hr
  exact ⟨hexec (.andwf d a f), hexec (.clrf a f), hexec (.comf d a f), hexec (.iorwf d a f), hexec (.setf a f),
    hexec (.swapf d a f), hexec (.xorwf d a f)⟩

/-- Settles O30: each entry is an instance of `exec_of_holdsRef31`. -/
theorem rotateEntriesDecode : Obligations.RotateEntriesDecode := by
  intro s seq w rest d a f h hr
  have hexec := exec_of_holdsRef31 h hr
  exact ⟨hexec (.rlcf d a f), hexec (.rlncf d a f), hexec (.rrcf d a f), hexec (.rrncf d a f)⟩

/-- Settles O31: each entry is an instance of `exec_of_holdsRef31`, which keeps every request behind the DECODE. -/
theorem skipEntriesDecode : Obligations.SkipEntriesDecode := by
  intro s seq w rest d a f h hr
  have hexec := exec_of_holdsRef31 h hr
  exact ⟨hexec (.cpfseq a f), hexec (.cpfsgt a f), hexec (.cpfslt a f), hexec (.decfsz d a f), hexec (.dcfsnz d a f),
    hexec (.incfsz d a f), hexec (.infsnz d a f), hexec (.tstfsz a f)⟩

/-- Settles O32: each entry is an instance of `exec_of_holdsRef31`. -/
theorem moveEntriesDecode : Obligations.MoveEntriesDecode := by
  intro s seq w rest d a f src h hr
  have hexec := exec_of_holdsRef31 h hr
  exact ⟨hexec (.movf d a f), hexec (.movff src), hexec (.movwf a f)⟩

end Sys2Proof.Proofs
end

section
/-! The block in MALFORMED: nothing but a RESET in front is acted on, and after it a LOAD may succeed (60_exceptions.md
R191). -/

namespace Sys2Proof.Proofs

open Sys2Proof Sys2Proof.Machine Sys2Proof.Laws

/-- All a step can do in MALFORMED: nothing at an empty port, take a refused LOAD or DECODE away without a response
(R103, R110), or RESET. No waiting RESET overtakes, since that choice is open in LOADED only. -/
theorem step_malformed_cases {s : State} (hs : s.status = .malformed) :
    step s = .next s ∨ step s = .next (s.finish none)
      ∨ (s.requests.head? = some .reset ∧ step s = .next (execReset s)) := by
  obtain ⟨-, hstep⟩ | ⟨rest, hr, hstep⟩ | ⟨d, rest, -, hstep⟩ | ⟨seq, w, rest, v, hr, hstep | ⟨hloaded, -⟩⟩ :=
    step_cases s
  · exact .inl hstep
  · exact .inr (.inr ⟨by simp [hr], hstep⟩)
  · rw [execLoad_refused _ d (by simp [hs])] at hstep
    exact .inr (.inl hstep)
  · rw [decodeRequest_refused v (by simp [hs]) hr] at hstep
    exact .inr (.inl hstep)
  · simp [hs] at hloaded

/-- In UNLOADED a LOAD of the empty description succeeds (R102). -/
theorem status_of_step_load_nil {s u : State} {rest : List Request} (hr : s.requests = .load [] :: rest)
    (hs : s.status = .unloaded) (h : step s = .next u) : u.status = .loaded := by
  cases (step_load_accepted hr hs (descriptionOk_nil _)).symm.trans h
  rfl

/-- Settles O43: the three things a step can do in MALFORMED, and a RESET leaves the block in UNLOADED. -/
theorem malformedStateIsLeftOnlyByReset : Obligations.MalformedStateIsLeftOnlyByReset := by
  intro s t hs h
  obtain hstep | hstep | ⟨hhead, hstep⟩ := step_malformed_cases hs
  · cases hstep.symm.trans h
    exact .inl ⟨sameBlock_refl s, rfl⟩
  · cases hstep.symm.trans h
    exact .inl ⟨sameBlock_finish s none, by simp⟩
  · cases hstep.symm.trans h
    exact .inr ⟨hhead, blockReset_execReset s, fun u => status_of_step_load_nil rfl rfl⟩

end Sys2Proof.Proofs
end

section
/-! The encoder and the decoder of REF31 invert each other (30_encoding.md R60; 42_reference_table.md R140 to R172): the
rows of the decoder are the entries of REF31, so at most one row heads a word, and each row reads what its encoder
writes. -/

namespace Sys2Proof.Proofs

open Sys2Proof Sys2Proof.Machine Sys2Proof.Laws

/-! ### The rows and the entries of REF31 -/

/-- A row heads a word when the word's leading bits are the row's prefix (R141). -/
def HeadsWord (r : Row) (w : Word) : Prop := slice w 15 (16 - r.plen) = r.pval

/-- The decoder's rows have the prefixes of REF31's entries, in the order of R140. -/
theorem rows_prefixes_eq_ref31Table :
    rows.map (fun r => (r.plen, r.pval)) = ref31Table.map (fun e => (e.plen, e.pval)) := by
  decide

theorem exists_entry_of_row {k : Nat} {r : Row} (hk : rows[k]? = some r) :
    ∃ e, ref31Table[k]? = some e ∧ e.plen = r.plen ∧ e.pval = r.pval := by
  have h := congrArg (fun l => l[k]?) rows_prefixes_eq_ref31Table
  simpa [List.getElem?_map, hk, eq_comm] using h

theorem exists_row_of_entry {k : Nat} {e : Entry} (hk : ref31Table[k]? = some e) :
    ∃ r, rows[k]? = some r ∧ r.plen = e.plen ∧ r.pval = e.pval := by
  have h := congrArg (fun l => l[k]?) rows_prefixes_eq_ref31Table
  simpa [List.getElem?_map, hk] using h

/-- A row heads a word exactly when its entry matches it (R111). -/
theorem headsWord_iff_matchesWord {r : Row} {e : Entry} (w : Word) (hlen : e.plen = r.plen) (hval : e.pval = r.pval) :
    HeadsWord r w ↔ matchesWord e w = true := by
  rw [matchesWord, beq_iff_eq, hlen, hval, HeadsWord]

/-- At most one row heads a word, as REF31 is prefix-free (R68). -/
theorem row_index_eq_of_headsWord {w : Word} {j k : Nat} {r r' : Row} (hj : rows[j]? = some r)
    (hk : rows[k]? = some r') (hr : HeadsWord r w) (hr' : HeadsWord r' w) : j = k := by
  obtain ⟨e, he, hlen, hval⟩ := exists_entry_of_row hj
  obtain ⟨e', he', hlen', hval'⟩ := exists_entry_of_row hk
  exact index_eq_of_matchesWord ref31Table_wf prefixFree_ref31Table he he'
    ((headsWord_iff_matchesWord w hlen hval).mp hr) ((headsWord_iff_matchesWord w hlen' hval').mp hr')

/-! ### The row that is found -/

theorem firstRow_eq_some {w : Word} {rs : List Row} {i : Instr} (h : firstRow w rs = some i) :
    ∃ r ∈ rs, HeadsWord r w ∧ r.build w = i := by
  induction rs with
  | nil => cases h
  | cons r rs ih =>
    rw [firstRow] at h
    split at h
    · exact ⟨r, List.mem_cons_self, by assumption, Option.some.inj h⟩
    · obtain ⟨r', hmem, hr'⟩ := ih h
      exact ⟨r', List.mem_cons_of_mem r hmem, hr'⟩

theorem firstRow_eq_none_iff {w : Word} {rs : List Row} : firstRow w rs = none ↔ ∀ r ∈ rs, ¬ HeadsWord r w := by
  induction rs with
  | nil => simp [firstRow]
  | cons r rs ih =>
    rw [firstRow, List.forall_mem_cons, ← ih, HeadsWord]
    split
    · simp [*]
    · simp [*]

/-- A row that heads the word is the one found, wherever it stands. -/
theorem firstRow_rows_of_headsWord {w : Word} {k : Nat} {r : Row} (hk : rows[k]? = some r) (hr : HeadsWord r w) :
    firstRow w rows = some (r.build w) := by
  cases hfound : firstRow w rows with
  | none => exact absurd hr (firstRow_eq_none_iff.mp hfound r (List.mem_of_getElem? hk))
  | some i =>
    obtain ⟨r', hmem, hr', rfl⟩ := firstRow_eq_some hfound
    obtain ⟨j, hj⟩ := List.mem_iff_getElem?.mp hmem
    obtain rfl : j = k := row_index_eq_of_headsWord hj hk hr' hr
    rw [hj] at hk
    rw [Option.some.inj hk]

theorem decodeWord_eq_ok_iff {w : Word} {i : Instr} : decodeWord w = .ok i ↔ firstRow w rows = some i := by
  unfold decodeWord
  split <;> simp [*]

theorem decodeWord_eq_error_iff {w : Word} {x : Reject} :
    decodeWord w = .error x ↔ firstRow w rows = none ∧ x = .unknownOpcode := by
  unfold decodeWord
  split <;> simp [*, eq_comm]

/-! ### What a format reads and what it packs (R64 to R66) -/

theorem readFda_packFda {p : Nat} (hp : p < 64) (mk : BitVec 1 → BitVec 1 → BitVec 8 → Instr) (d a : BitVec 1)
    (f : BitVec 8) : readFda mk (packFda p d a f) = mk d a f := by
  have := bit_le d
  have := bit_le a
  have := f.isLt
  have hd : slice (packFda p d a f) 9 9 = d.toNat := by rw [slice, packFda_toNat hp]; omega
  have ha : slice (packFda p d a f) 8 8 = a.toNat := by rw [slice, packFda_toNat hp]; omega
  have hf : slice (packFda p d a f) 7 0 = f.toNat := by rw [slice, packFda_toNat hp]; omega
  simp [readFda, hd, ha, hf]

theorem readFa_packFa {p : Nat} (hp : p < 128) (mk : BitVec 1 → BitVec 8 → Instr) (a : BitVec 1) (f : BitVec 8) :
    readFa mk (packFa p a f) = mk a f := by
  have := bit_le a
  have := f.isLt
  have ha : slice (packFa p a f) 8 8 = a.toNat := by rw [slice, packFa_toNat hp]; omega
  have hf : slice (packFa p a f) 7 0 = f.toNat := by rw [slice, packFa_toNat hp]; omega
  simp [readFa, ha, hf]

theorem readF12_packF12 {p : Nat} (hp : p < 16) (mk : BitVec 12 → Instr) (src : BitVec 12) :
    readF12 mk (packF12 p src) = mk src := by
  have := src.isLt
  have hsrc : slice (packF12 p src) 11 0 = src.toNat := by rw [slice, packF12_toNat hp]; omega
  simp [readF12, hsrc]

/-- The row of an instruction heads its encoding and reads the instruction back from it. -/
theorem row_reads_encode (i : Instr) :
    ∃ r, rows[i.index]? = some r ∧ HeadsWord r (encode i) ∧ r.build (encode i) = i := by
  cases i with
  | addwf d a f | addwfc d a f | andwf d a f | comf d a f | decf d a f | decfsz d a f | dcfsnz d a f | incf d a f
  | incfsz d a f | infsnz d a f | iorwf d a f | movf d a f | rlcf d a f | rlncf d a f | rrcf d a f | rrncf d a f
  | subfwb d a f | subwf d a f | subwfb d a f | swapf d a f | xorwf d a f =>
    exact ⟨_, rfl, fda_leadingBits (by decide) d a f, readFda_packFda (by decide) _ d a f⟩
  | clrf a f | cpfseq a f | cpfsgt a f | cpfslt a f | movwf a f | mulwf a f | negf a f | setf a f | tstfsz a f =>
    exact ⟨_, rfl, fa_leadingBits (by decide) a f, readFa_packFa (by decide) _ a f⟩
  | movff src => exact ⟨_, rfl, f12_leadingBits (by decide) src, readF12_packF12 (by decide) _ src⟩

/-- The decoder inverts the encoder. -/
theorem decodeWord_encode (i : Instr) : decodeWord (encode i) = .ok i := by
  obtain ⟨r, hr, hheads, hbuild⟩ := row_reads_encode i
  rw [decodeWord_eq_ok_iff, firstRow_rows_of_headsWord hr hheads, hbuild]

/-! ### What a row packs back -/

/-- The encoder gives back every word that the row heads. -/
def PacksBack (r : Row) : Prop := ∀ w, HeadsWord r w → encode (r.build w) = w

theorem packsBack_fda {p : Nat} {mk : BitVec 1 → BitVec 1 → BitVec 8 → Instr}
    (hmk : ∀ d a f, encode (mk d a f) = packFda p d a f := by intros; rfl) : PacksBack ⟨6, p, readFda mk⟩ := by
  intro w hw
  have := w.isLt
  have hlead : w.toNat / 1024 % 64 = p := hw
  refine (hmk _ _ _).trans (BitVec.eq_of_toNat_eq ?_)
  rw [packFda_toNat (by omega)]
  simp only [slice, BitVec.toNat_ofNat]
  omega

theorem packsBack_fa {p : Nat} {mk : BitVec 1 → BitVec 8 → Instr}
    (hmk : ∀ a f, encode (mk a f) = packFa p a f := by intros; rfl) :
    PacksBack ⟨7, p, readFa mk⟩ := by
  intro w hw
  have := w.isLt
  have hlead : w.toNat / 512 % 128 = p := hw
  refine (hmk _ _).trans (BitVec.eq_of_toNat_eq ?_)
  rw [packFa_toNat (by omega)]
  simp only [slice, BitVec.toNat_ofNat]
  omega

theorem packsBack_f12 {p : Nat} {mk : BitVec 12 → Instr}
    (hmk : ∀ src, encode (mk src) = packF12 p src := by intros; rfl) :
    PacksBack ⟨4, p, readF12 mk⟩ := by
  intro w hw
  have := w.isLt
  have hlead : w.toNat / 4096 % 16 = p := hw
  refine (hmk _).trans (BitVec.eq_of_toNat_eq ?_)
  rw [packF12_toNat (by omega)]
  simp only [slice, BitVec.toNat_ofNat]
  omega

/-- Every row packs back what it reads: by its format, since the encoder writes the row's own prefix. -/
theorem rows_packBack : ∀ r ∈ rows, PacksBack r := by
  simp only [rows, rowsLow, rowsHigh, List.cons_append, List.nil_append, List.forall_mem_cons, List.not_mem_nil,
    false_implies, implies_true, and_true]
  exact ⟨packsBack_fda, packsBack_fda, packsBack_fda, packsBack_fa, packsBack_fda, packsBack_fa, packsBack_fa,
    packsBack_fa, packsBack_fda, packsBack_fda, packsBack_fda, packsBack_fda, packsBack_fda, packsBack_fda,
    packsBack_fda, packsBack_fda, packsBack_f12, packsBack_fa, packsBack_fa, packsBack_fa, packsBack_fda,
    packsBack_fda, packsBack_fda, packsBack_fda, packsBack_fa, packsBack_fda, packsBack_fda, packsBack_fda,
    packsBack_fda, packsBack_fa, packsBack_fda⟩

/-- The encoder inverts the decoder: the row that is found heads the word and packs it back. -/
theorem encode_of_decodeWord {w : Word} {i : Instr} (h : decodeWord w = .ok i) : encode i = w := by
  obtain ⟨r, hmem, hheads, rfl⟩ := firstRow_eq_some (decodeWord_eq_ok_iff.mp h)
  exact rows_packBack r hmem w hheads

/-! ### The obligations -/

/-- Settles O1: the instruction's row heads its encoding and reads its operands back. -/
theorem decodeOfEncodeIsTheInstruction : Obligations.DecodeOfEncodeIsTheInstruction := decodeWord_encode

/-- Settles O2: the row that is found packs the word back. -/
theorem encodeOfDecodeIsTheWord : Obligations.EncodeOfDecodeIsTheWord := fun _ _ => encode_of_decodeWord

/-- Settles O3: each worked example is the encoding of its instruction, and no row heads 0xF030. -/
theorem writtenWordsDecode : Obligations.WrittenWordsDecode :=
  ⟨decodeWord_encode (.addwf 1 0 90), decodeWord_encode (.clrf 1 195), decodeWord_encode (.movff 291),
    decodeWord_encode (.mulwf 1 195), decodeWord_encode (.rrcf 1 0 90), decodeWord_encode (.tstfsz 1 195), rfl⟩

end Sys2Proof.Proofs
end

section
/-! Under REF31 the block's longest-prefix DECODE and the decoder of REF31's instructions read a word the same way
(42_reference_table.md R140 to R173). -/

namespace Sys2Proof.Proofs

open Sys2Proof Sys2Proof.Machine Sys2Proof.Laws

/-- No entry of REF31 matches a word that the decoder rejects (R173). -/
theorem matchesWord_eq_false_of_firstRow_eq_none {w : Word} (h : firstRow w rows = none) :
    ∀ e ∈ ref31Table, matchesWord e w = false := by
  intro e he
  obtain ⟨k, hk⟩ := List.mem_iff_getElem?.mp he
  obtain ⟨r, hr, hlen, hval⟩ := exists_row_of_entry hk
  rw [← Bool.not_eq_true, ← headsWord_iff_matchesWord w hlen.symm hval.symm]
  exact firstRow_eq_none_iff.mp h r (List.mem_of_getElem? hr)

/-- Settles O4: a word that decodes to an instruction is its encoding, and any other word has no candidate. -/
theorem blockUnderRef31AgreesWithEveryEntryRule : Obligations.BlockUnderRef31AgreesWithEveryEntryRule := by
  intro w
  cases hw : decodeWord w with
  | ok i =>
    obtain rfl := encode_of_decodeWord hw
    exact decodeOutcome_encode i
  | error _ =>
    obtain ⟨hnone, -⟩ := decodeWord_eq_error_iff.mp hw
    exact decodeOutcome_eq_unknownOpcode_iff.mpr
      (candidates_eq_nil_iff.mpr (matchesWord_eq_false_of_firstRow_eq_none hnone))

end Sys2Proof.Proofs
end

section
/-! A step on a DECODE, in every STATUS and with or without a RESET behind it (41_decode.md R110, R119;
70_reset_and_hazards.md R210, R214, R215), and what an instruction does at the port. -/

namespace Sys2Proof.Proofs

open Sys2Proof Sys2Proof.Machine Sys2Proof.Laws

theorem finish_none_eq {s : State} {r : Request} {rest : List Request} (hr : s.requests = r :: rest) :
    s.finish none = { s with requests := rest } := by
  simp [State.finish, hr]

/-! ### DECODE of the requested word -/

theorem runWord_of_decodeWord {w : Word} {i : Instr} (hw : decodeWord w = .ok i) (s : State) :
    runWord w s = exec i s := by
  simp only [runWord, hw]

/-- Serving a word is DECODE of that very word, as an instruction's encoding is the word it was read from. -/
theorem runWord_eq_decodeRequest (w : Word) (s : State) : runWord w s = .next (decodeRequest w s) := by
  cases hw : decodeWord w with
  | ok i => rw [runWord_of_decodeWord hw, exec_eq_decodeRequest, encode_of_decodeWord hw]
  | error _ => simp only [runWord, hw]

section
variable {s : State} {seq : Nat} {w : Word} {rest : List Request} (hr : s.requests = .decode seq w :: rest)
include hr

theorem decodeRequest_eq_answered (v : Word) (hs : s.status = .loaded) :
    decodeRequest v s = { s with
      requests := rest, responses := s.responses ++ [.decode seq (decodeOutcome (s.table.take s.n) v)] } := by
  rw [decodeRequest_loaded v hs hr, finish_some_eq _ hr, State.liveTable]

theorem decodeRequest_eq_refused (v : Word) (hs : s.status ≠ .loaded) :
    decodeRequest v s = { s with requests := rest } := by
  rw [decodeRequest_refused v hs hr, finish_none_eq hr]

/-- Where no table is loaded or no RESET waits there is no choice to take. -/
theorem step_decode_of_choice_closed (hclosed : s.status ≠ .loaded ∨ Request.reset ∉ rest) :
    step s = runWord w s := by
  have hopen : ¬ s.resetChoiceOpen = true := by
    simpa [State.resetChoiceOpen, hr, resetWaits_iff, imp_iff_not_or] using hclosed
  simp only [step, hr, serveDecode, if_neg hopen]

/-- In LOADED the free choice decides whether a waiting RESET comes first. -/
theorem step_decode_of_choice_open (hs : s.status = .loaded) (hwaits : Request.reset ∈ rest) :
    step s = if Config.resetOvertakes s.choices then .next (execReset s.countChoice) else runWord w s.countChoice := by
  have hopen : s.resetChoiceOpen = true := by
    simp [State.resetChoiceOpen, hr, resetWaits_iff, hs, hwaits]
  simp only [step, hr, serveDecode, if_pos hopen]

theorem step_decode_answered (hs : s.status = .loaded) (hwaits : Request.reset ∉ rest) :
    step s = .next { s with
      requests := rest, responses := s.responses ++ [.decode seq (decodeOutcome (s.table.take s.n) w)] } := by
  rw [step_decode hr hwaits, runWord_eq_decodeRequest, decodeRequest_eq_answered hr w hs]

theorem step_decode_refused (hs : s.status ≠ .loaded) : step s = .next { s with requests := rest } := by
  rw [step_decode_of_choice_closed hr (.inl hs), runWord_eq_decodeRequest, decodeRequest_eq_refused hr w hs]

end

/-! ### The obligations -/

/-- Settles O21: the two cases of the free choice, and a word that decodes is run as its instruction. -/
theorem stepRunsTheDecodedInstruction : Obligations.StepRunsTheDecodedInstruction := by
  intro s seq w rest i hr hw
  refine ⟨fun hclosed => ?_, fun hs hwaits => ?_⟩
  · rw [step_decode_of_choice_closed hr hclosed, runWord_of_decodeWord hw]
  · rw [step_decode_of_choice_open hr hs hwaits, runWord_of_decodeWord hw]

/-- Settles O22: the refused and the accepted DECODE. -/
theorem decodeIsAcceptedOnlyWhenLoaded : Obligations.DecodeIsAcceptedOnlyWhenLoaded :=
  fun _ _ _ _ hr => ⟨step_decode_refused hr, step_decode_answered hr⟩

/-- Settles O25: every instruction is the DECODE of its own encoding, which is answered in LOADED. -/
theorem everyInstructionIsAnsweredFromTheTable : Obligations.EveryInstructionIsAnsweredFromTheTable := by
  intro i s seq w rest hs hr
  rw [exec_eq_decodeRequest, decodeRequest_eq_answered hr _ hs]

/-- Settles O26: every instruction is the DECODE of its own encoding, which is refused outside LOADED. -/
theorem everyInstructionIsRefusedOutsideLoaded : Obligations.EveryInstructionIsRefusedOutsideLoaded := by
  intro i s seq w rest hs hr
  rw [exec_eq_decodeRequest, decodeRequest_eq_refused hr _ hs]

/-- Settles O27: a DECODE does nothing, or finishes the oldest request with at most one response. -/
theorem instructionsLeaveTheBlockUnchanged : Obligations.InstructionsLeaveTheBlockUnchanged := by
  intro i s t h
  rw [exec_eq_decodeRequest] at h
  cases h
  refine ⟨sameBlock_decodeRequest _ s, ?_⟩
  obtain h | ⟨answer, h⟩ := decodeRequest_cases (encode i) s
  · rw [h]
    exact ⟨rfl, .inl rfl, .inl rfl⟩
  · rw [h]
    refine ⟨rfl, .inr rfl, ?_⟩
    cases answer with
    | none => exact .inl (List.append_nil _)
    | some r => exact .inr ⟨r, rfl⟩

/-- Settles O46: every case of a step is a next state. -/
theorem noOperationTrapsOrHalts : Obligations.NoOperationTrapsOrHalts := by
  intro s
  obtain ⟨-, h⟩ | ⟨_, -, h⟩ | ⟨_, _, -, h⟩ | ⟨_, _, _, _, -, h | ⟨-, -, h | h⟩⟩ := step_cases s
  all_goals exact ⟨_, h⟩

/-- Settles O40: a RESET in front drops nothing; one behind a DECODE is served first, dropping all before it, or the
DECODE is answered. -/
theorem resetRestoresTheResetValues : Obligations.ResetRestoresTheResetValues := by
  constructor
  · intro s rest hr
    rw [step_reset hr, execReset, hr]
    rfl
  · intro s seq w waiting rest hs hwaiting hr
    have hcounted : s.countChoice.requests = .decode seq w :: (waiting ++ .reset :: rest) := hr
    have hdropped : afterReset s.countChoice.requests = rest := by
      rw [hcounted, afterReset, afterReset_append_reset rest hwaiting]
    rw [step_decode_of_choice_open hr hs (by simp), runWord_eq_decodeRequest,
      decodeRequest_eq_answered hcounted w hs, execReset, hdropped]
    rfl

end Sys2Proof.Proofs
end

section
/-! A stream of DECODEs behind a loaded table or behind the LOAD of a sound description (20_memory.md R48;
70_reset_and_hazards.md R212), and which descriptions LOAD stores (40_table_load.md R91 to R104). -/

namespace Sys2Proof.Proofs

open Sys2Proof Sys2Proof.Machine Sys2Proof.Laws

/-! ### Streams -/

theorem run_succ_of_step {M : Host.Core} {s t : M.State} (k : Nat) (h : M.step s = .next t) :
    M.run (k + 1) s = M.run k t := by
  simp only [Host.Core.run, h]

/-- Settles O24: each DECODE is the oldest in turn, and serving it leaves table and STATUS for the next. -/
theorem responsesLeaveInRequestOrder : Obligations.ResponsesLeaveInRequestOrder := by
  intro stream
  induction stream with
  | nil =>
    intro rest s _ _ hr
    obtain rfl : s.requests = rest := hr
    simp [Host.Core.run]
  | cons p stream ih =>
    intro rest s hs hwaits hr
    have hnone : Request.reset ∉ stream.map (fun p => Request.decode p.1 p.2) ++ rest := by simp [hwaits]
    refine Eq.trans (run_succ_of_step _ (step_decode_answered hr hs hnone)) ?_
    refine Eq.trans (ih rest _ hs hwaits rfl) ?_
    simp

/-- Settles O39: the LOAD is one step, and the stream behind it then meets a loaded table. -/
theorem loadedTableAnswersTheStreamBehindIt : Obligations.LoadedTableAnswersTheStreamBehindIt := by
  intro s d stream rest hs hok hwaits hr
  have hlive : (d.map storedEntry).take d.length = d.map storedEntry := List.take_of_length_le (by simp)
  refine Eq.trans (run_succ_of_step _ (step_load_accepted hr hs hok)) ?_
  refine Eq.trans (responsesLeaveInRequestOrder stream rest _ rfl hwaits rfl) ?_
  simp [hlive]

/-! ### LOAD -/

/-- Settles O33: a refused LOAD only leaves the port. -/
theorem loadIsRefusedOutsideUnloaded : Obligations.LoadIsRefusedOutsideUnloaded := by
  intro s d rest hr hs
  rw [step_load hr, execLoad_refused _ d hs, finish_none_eq hr]

/-- REF31 passes every check for every MAX_ENTRIES, which is at least 31 (R10, R140). -/
theorem descriptionOk_ref31 : DescriptionOk Config.maxEntries ref31 := by
  have h31 : DescriptionOk 31 ref31 := firstFailure_eq_none.mp (by decide)
  exact ⟨h31.size.trans (Nat.le_add_left 31 Config.spareEntries), h31.entries, h31.unique⟩

/-- Settles O38: REF31 is a sound description, and none of its entries repeats a field name. -/
theorem ref31Loads : Obligations.Ref31Loads := by
  refine ⟨fun s rest hr hs => ?_, by decide⟩
  have hdup : dupFlag (ref31.map storedEntry) = false := by decide
  rw [step_load_accepted hr hs descriptionOk_ref31, hdup]
  rfl

/-- A name of at most one character is stored without loss (R97, R105). -/
theorem head?_toList_inj {a b : String} (ha : a.length ≤ 1) (hb : b.length ≤ 1) :
    a.toList.head? = b.toList.head? ↔ a = b := by
  rw [← String.length_toList] at ha hb
  rw [← String.toList_inj]
  match hla : a.toList, hlb : b.toList with
  | [], [] => simp
  | [], _ :: _ => simp
  | _ :: _, [] => simp
  | [_], [_] => simp
  | _ :: _ :: _, _ => simp [hla] at ha
  | _, _ :: _ :: _ => simp [hlb] at hb

/-- A stored entry repeats a field name exactly when its description does (R100). -/
theorem namesRepeat_storedEntry {e : EntryDesc} (hnames : ∀ f ∈ e.fields, f.name.length ≤ 1) :
    namesRepeat (storedEntry e) = true ↔
      ∃ (j₁ j₂ : Nat) (f₁ f₂ : FieldDesc), j₁ < j₂ ∧ e.fields[j₁]? = some f₁ ∧ e.fields[j₂]? = some f₂
        ∧ f₁.name = f₂.name := by
  have hpairwise : ((storedEntry e).fields.map (·.name)).Nodup ↔ e.fields.Pairwise (fun f g => f.name ≠ g.name) := by
    rw [storedEntry, List.map_map, List.Nodup, List.pairwise_map]
    exact List.Pairwise.iff_of_mem fun hf hg => not_congr (head?_toList_inj (hnames _ hf) (hnames _ hg))
  rw [namesRepeat, decide_eq_true_eq, hpairwise, List.pairwise_iff_getElem]
  simp only [not_forall, not_not, List.getElem?_eq_some_iff]
  constructor
  · rintro ⟨j₁, j₂, h₁, h₂, hlt, hname⟩
    exact ⟨j₁, j₂, _, _, hlt, ⟨h₁, rfl⟩, ⟨h₂, rfl⟩, hname⟩
  · rintro ⟨j₁, j₂, _, _, hlt, ⟨h₁, rfl⟩, ⟨h₂, rfl⟩, hname⟩
    exact ⟨j₁, j₂, h₁, h₂, hlt, hname⟩

theorem dupFlag_storedEntry {d : List EntryDesc} {limit : Nat} (hok : DescriptionOk limit d) :
    dupFlag (d.map storedEntry) = true ↔
      ∃ e ∈ d, ∃ (j₁ j₂ : Nat) (f₁ f₂ : FieldDesc), j₁ < j₂ ∧ e.fields[j₁]? = some f₁
        ∧ e.fields[j₂]? = some f₂ ∧ f₁.name = f₂.name := by
  simp only [dupFlag, List.any_map, List.any_eq_true, Function.comp_apply]
  exact exists_congr fun e => and_congr_right fun he => namesRepeat_storedEntry (hok.entries e he).names

/-! ### The code and the index of a failure -/

/-- An entry never fails with code 0, and never with the code of the size check. -/
theorem checkEntry_code {earlier : List String} {e : EntryDesc} {c : ErrCode} (h : checkEntry earlier e = some c) :
    c ≠ .noError ∧ c ≠ .tableTooLarge := by
  rw [checkEntry_eq] at h
  split at h
  · cases h
    decide
  · split at h
    · cases h
      decide
    · have hmem := checkPrefix_code h
      constructor <;> (rintro rfl; revert hmem; decide)

theorem checkFrom_code {earlier : List String} {start i : Nat} {d : List EntryDesc} {c : ErrCode}
    (h : checkFrom earlier start d = some (c, i)) : c ≠ .noError ∧ c ≠ .tableTooLarge := by
  induction d generalizing earlier start with
  | nil => cases h
  | cons e d ih =>
    rw [checkFrom] at h
    split at h
    · cases h
      exact checkEntry_code (by assumption)
    · exact ih h

/-- A failure has a code other than 0, and the size failure has index 0 (R25, R92, R181). -/
theorem firstFailure_code {limit i : Nat} {d : List EntryDesc} {c : ErrCode}
    (h : firstFailure limit d = some (c, i)) : c ≠ .noError ∧ (c = .tableTooLarge → i = 0) := by
  by_cases hsize : d.length > limit
  · cases (firstFailure_of_size hsize).symm.trans h
    exact ⟨by decide, fun _ => rfl⟩
  · rw [firstFailure_of_le (Nat.le_of_not_gt hsize)] at h
    obtain ⟨hcode, hlarge⟩ := checkFrom_code h
    exact ⟨hcode, fun hc => absurd hc hlarge⟩

/-- Settles O34: LOAD accepts exactly the sound descriptions, and a failure has a code other than 0. -/
theorem loadStoresExactlyTheSoundDescriptions : Obligations.LoadStoresExactlyTheSoundDescriptions := by
  intro s d rest hr hs
  refine ⟨fun hok => ⟨_, dupFlag_storedEntry hok, step_load_accepted hr hs hok⟩, fun hbad => ?_⟩
  cases hfail : firstFailure Config.maxEntries d with
  | none => exact absurd (firstFailure_eq_none.mp hfail) hbad
  | some failure =>
    obtain ⟨c, i⟩ := failure
    exact ⟨c, i, (firstFailure_code hfail).1, step_load_rejected hr hs hfail⟩

end Sys2Proof.Proofs
end

section
/-! The invariant of the block (10_state.md R20 to R27, R33): RESET and LOAD establish it, everything else leaves the
six state elements it speaks of unchanged. -/

namespace Sys2Proof.Proofs

open Sys2Proof Sys2Proof.Machine Sys2Proof.Laws

theorem inv_of_sameBlock {s t : State} (hs : s.Inv) (h : SameBlock s t) : t.Inv where
  count := by rw [h.n, h.table, hs.count]
  bound := by rw [h.n]; exact hs.bound
  stored := by rw [h.table]; exact hs.stored
  held := by rw [h.status, h.table]; exact hs.held
  dup := by rw [h.dupField, h.table, hs.dup]
  cause := by rw [h.errCode, h.status]; exact hs.cause
  index := by rw [h.status, h.errIndex]; exact hs.index
  size := by rw [h.errCode, h.errIndex]; exact hs.size

theorem inv_of_blockReset {t : State} (h : BlockReset t) : t.Inv where
  count := by rw [h.n, h.table]; rfl
  bound := by rw [h.n]; exact Nat.zero_le _
  stored := by rw [h.table]; rfl
  held := fun _ => h.table
  dup := by rw [h.dupField, h.table]; rfl
  cause := by simp [h.errCode, h.status]
  index := fun _ => h.errIndex
  size := fun _ => h.errIndex

/-- A sound description is stored as a well-formed table (R21, R93). -/
theorem table_wf_storedEntry {limit : Nat} {d : List EntryDesc} (hok : DescriptionOk limit d) :
    Table.wf (d.map storedEntry) = true := by
  have hunique : ((d.map storedEntry).map (·.mnemonic)).Nodup := by
    rw [List.map_map]
    exact hok.unique
  simp only [Table.wf, Bool.and_eq_true, List.all_eq_true, decide_eq_true_eq, List.forall_mem_map]
  exact ⟨⟨fun e he => storedEntry_wf (hok.entries e he), fun e he => (hok.entries e he).mnemonic⟩, hunique⟩

theorem inv_storeTable {s : State} {d : List EntryDesc} (hs : s.Inv) (hstatus : s.status = .unloaded)
    (hok : DescriptionOk Config.maxEntries d) : (s.storeTable d).Inv where
  count := (List.length_map _).symm
  bound := hok.size
  stored := table_wf_storedEntry hok
  held := fun h => absurd rfl h
  dup := rfl
  cause := by simpa [hstatus] using hs.cause
  index := fun _ => hs.index (by simp [hstatus])
  size := hs.size

/-- The cause of a failure is recorded with the table dropped (R104). -/
theorem inv_rejectTable (s : State) {c : ErrCode} {i : Nat} (hcode : c ≠ .noError)
    (hsize : c = .tableTooLarge → i = 0) : (s.rejectTable c i).Inv where
  count := rfl
  bound := Nat.zero_le _
  stored := rfl
  held := fun _ => rfl
  dup := rfl
  cause := by simp [hcode]
  index := fun h => absurd rfl h
  size := hsize

theorem inv_execLoad {s : State} (d : List EntryDesc) (hs : s.Inv) : (execLoad Config.maxEntries d s).Inv := by
  obtain ⟨-, h⟩ | ⟨c, i, -, hfail, h⟩ | ⟨hstatus, hfail, h⟩ := execLoad_cases Config.maxEntries d s
  · rw [h]
    exact inv_of_sameBlock hs (sameBlock_finish s none)
  · rw [h]
    obtain ⟨hcode, hsize⟩ := firstFailure_code hfail
    exact inv_of_sameBlock (inv_rejectTable s hcode hsize) (sameBlock_finish _ _)
  · rw [h]
    exact inv_of_sameBlock (inv_storeTable hs hstatus (firstFailure_eq_none.mp hfail)) (sameBlock_finish _ _)

/-- Settles O44: the reset state has the reset values. -/
theorem invariantHoldsAtReset : Obligations.InvariantHoldsAtReset :=
  inv_of_blockReset ⟨rfl, rfl, rfl, rfl, rfl, rfl⟩

/-- Settles O45: of all a step can do, only LOAD and RESET write the state elements. -/
theorem stepKeepsTheInvariant : Obligations.StepKeepsTheInvariant := by
  intro s t hs h
  obtain ⟨-, hstep⟩ | ⟨_, -, hstep⟩ | ⟨d, _, -, hstep⟩ | ⟨_, _, _, v, -, hstep | ⟨-, -, hstep | hstep⟩⟩ := step_cases s
  · cases hstep.symm.trans h
    exact hs
  · cases hstep.symm.trans h
    exact inv_of_blockReset (blockReset_execReset s)
  · cases hstep.symm.trans h
    exact inv_execLoad d hs
  · cases hstep.symm.trans h
    exact inv_of_sameBlock hs (sameBlock_decodeRequest v s)
  · cases hstep.symm.trans h
    exact inv_of_blockReset (blockReset_execReset s.countChoice)
  · cases hstep.symm.trans h
    exact inv_of_sameBlock hs (sameBlock_of_countChoice (sameBlock_decodeRequest v s.countChoice))

end Sys2Proof.Proofs
end

section
/-! Which of the three outcomes a word has (60_exceptions.md R188), what a decode costs (00_scope.md R10,
70_reset_and_hazards.md R215), and that the fields of a matched word lose no bit of it (30_encoding.md R60). -/

namespace Sys2Proof.Proofs

open Sys2Proof Sys2Proof.Machine Sys2Proof.Laws

/-! ### The kind of an outcome (R182) -/

theorem kind_le_two (o : DecodeOutcome) : o.kind ≤ 2 := by
  cases o <;> simp [DecodeOutcome.kind]

theorem kind_eq_one_iff {o : DecodeOutcome} : o.kind = 1 ↔ o = .unknownOpcode := by
  cases o <;> simp [DecodeOutcome.kind]

theorem kind_eq_zero_iff {o : DecodeOutcome} : o.kind = 0 ↔ ∃ i mnemonic raw map, o = .decoded i mnemonic raw map := by
  cases o <;> simp [DecodeOutcome.kind]

theorem kind_eq_two_iff {o : DecodeOutcome} : o.kind = 2 ↔ ∃ tied, o = .ambiguousEncoding tied := by
  cases o <;> simp [DecodeOutcome.kind]

/-- A winner has the greatest matching length (R115). -/
theorem greatestLength_of_winner {t : List Entry} {w : Word} {i : Nat} {e : Entry}
    (h : (e, i) ∈ winners (candidates t w)) : GreatestLength t w e.plen := by
  obtain ⟨hi, hm, hmax⟩ := mem_winners.mp h
  refine ⟨⟨e, List.mem_of_getElem? hi, hm, rfl⟩, fun e' he' hm' => ?_⟩
  obtain ⟨j, hj⟩ := List.mem_iff_getElem?.mp he'
  exact hmax j e' hj hm'

/-- The only winner matches, and every other matching entry is strictly shorter (R118). -/
theorem noRival_of_only_winner {t : List Entry} {w : Word} {i : Nat} {e : Entry}
    (h : winners (candidates t w) = [(e, i)]) : NoRival t i e.plen w := by
  intro j e' hj hji hm'
  have hL := greatestLength_of_winner (h ▸ List.mem_singleton_self (e, i))
  refine lt_of_le_of_ne (hL.2 e' (List.mem_of_getElem? hj) hm') fun hlen => hji ?_
  have hwin : (e', j) ∈ winners (candidates t w) := (mem_winners_iff_plen hL).mpr ⟨hj, hm', hlen⟩
  rw [h, List.mem_singleton] at hwin
  exact congrArg Prod.snd hwin

/-- Settles O15: no winner, one winner or several, and the only winner is the matching entry without a rival. -/
theorem decodeOutcomesAreExclusiveAndExhaustive : Obligations.DecodeOutcomesAreExclusiveAndExhaustive := by
  intro t w
  refine ⟨kind_eq_one_iff.trans (noMatchIsUnknownOpcode t w), kind_eq_two_iff.trans ⟨?_, ?_⟩,
    kind_eq_zero_iff.trans ⟨?_, ?_⟩, kind_le_two _⟩
  · rintro ⟨tied, hout⟩
    obtain ⟨A, B, i, j, hA, hB, hlt⟩ := exists_winners_lt (decodeOutcome_eq_ambiguous_iff.mp hout).1
    have hL := greatestLength_of_winner hA
    obtain ⟨hi, hmA, -⟩ := (mem_winners_iff_plen hL).mp hA
    obtain ⟨hj, hmB, hlen⟩ := (mem_winners_iff_plen hL).mp hB
    exact ⟨A.plen, i, j, A, B, hL, hlt.ne, hi, hmA, rfl, hj, hmB, hlen⟩
  · rintro ⟨L, i, j, A, B, hL, hij, hi, hmA, hA, hj, hmB, hB⟩
    obtain ⟨tied, hout, -⟩ := tieIsAmbiguousEncoding t w L i j A B hL hij hi hmA hA hj hmB hB
    exact ⟨tied, hout⟩
  · rintro ⟨i, mnemonic, raw, map, hout⟩
    obtain ⟨e, hwin⟩ := winner_of_decoded hout
    obtain ⟨hi, hm, -⟩ := mem_winners.mp (hwin ▸ List.mem_singleton_self (e, i))
    exact ⟨i, e, hi, hm, noRival_of_only_winner hwin⟩
  · rintro ⟨i, e, hi, hm, hrival⟩
    exact ⟨_, _, _, _, decoded_of_noRival hi hm hrival⟩

/-! ### The cost of a decode -/

/-- A comparison reads no character of the second string twice. -/
theorem compareBits_snd_le (p s : List Bool) : (compareBits p s).2 ≤ s.length := by
  induction p generalizing s with
  | nil => exact Nat.zero_le _
  | cons a p ih =>
    cases s with
    | nil => exact Nat.le_refl 0
    | cons b s =>
      rw [compareBits, List.length_cons]
      split
      · exact Nat.succ_le_succ (ih s)
      · exact Nat.succ_le_succ (Nat.zero_le _)

@[simp] theorem length_bitString (w : Word) : (bitString w).length = 16 := length_bitsOf _ _

/-- Settles O20: each comparison reads at most the sixteen bits of the word. -/
theorem decodeCostIsBounded : Obligations.DecodeCostIsBounded := by
  intro t w
  have hcost : ∀ n ∈ t.map (fun e => (compareBits (prefixBits e) (bitString w)).2), n ≤ 16 :=
    List.forall_mem_map.mpr fun e _ => length_bitString w ▸ compareBits_snd_le _ _
  simpa [decodeCost] using List.sum_le_card_nsmul _ 16 hcost

/-! ### A matched word -/

/-- The low `n` bits alone give the string of `n` characters. -/
theorem bitsOf_mod_two_pow (v n : Nat) : bitsOf (v % 2 ^ n) n = bitsOf v n := by
  have h := bitsOf_val (bitsOf v n)
  rwa [val_bitsOf, length_bitsOf] at h

/-- Fields written in their widths, one after the other. -/
def fieldBits (fields : List Field) (raw : List Word) : List Bool :=
  (List.zipWith (fun f v => bitsOf (BitVec.toNat v) f.width) fields raw).flatten

/-- A field extracted at the cursor `c` is written as the `f.width` bits that stand there (R113). -/
theorem bitsOf_extracted_field (w : Word) {c width : Nat} (h1 : 1 ≤ width) (hend : c + width ≤ 16) :
    bitsOf (BitVec.ofNat 16 (slice w (15 - c) (16 - c - width))).toNat width =
      bitsOf (w.toNat / 2 ^ (16 - c - width)) width := by
  have hwidth : 15 - c - (16 - c - width) + 1 = width := by omega
  have hlt : slice w (15 - c) (16 - c - width) < 2 ^ 16 :=
    (slice_lt w _ _).trans_le (Nat.pow_le_pow_right (by decide) (by omega))
  rw [BitVec.toNat_ofNat, Nat.mod_eq_of_lt hlt, slice, hwidth, bitsOf_mod_two_pow]

/-- Fields that fill the word from the cursor on write exactly the bits from there on. -/
theorem fieldBits_extractFrom (w : Word) {fields : List Field} {c : Nat} (hwidths : ∀ f ∈ fields, 1 ≤ f.width)
    (hfill : c + (fields.map (·.width)).sum = 16) :
    fieldBits fields (extractFrom w c fields) = bitsOf w.toNat (16 - c) := by
  induction fields generalizing c with
  | nil =>
    obtain rfl : c = 16 := hfill
    rfl
  | cons f fields ih =>
    rw [List.map_cons, List.sum_cons, ← Nat.add_assoc] at hfill
    obtain ⟨h1, hrest⟩ := List.forall_mem_cons.mp hwidths
    have hsplit : 16 - c = f.width + (16 - c - f.width) := by omega
    calc fieldBits (f :: fields) (extractFrom w c (f :: fields))
        = bitsOf (BitVec.ofNat 16 (slice w (15 - c) (16 - c - f.width))).toNat f.width ++
            fieldBits fields (extractFrom w (c + f.width) fields) := rfl
      _ = bitsOf (w.toNat / 2 ^ (16 - c - f.width)) f.width ++ bitsOf w.toNat (16 - c - f.width) := by
          rw [bitsOf_extracted_field w h1 (by omega), ih hrest hfill, Nat.sub_sub]
      _ = bitsOf w.toNat (16 - c) := by rw [← bitsOf_add, ← hsplit]

/-- Settles O11: the word splits below the prefix, and the fields fill what lies below. -/
theorem matchedWordIsPrefixThenFields : Obligations.MatchedWordIsPrefixThenFields := by
  intro e w he hm
  obtain ⟨-, h16, -, hwidths, hfill⟩ := wf_iff.mp he
  have hfields := fieldBits_extractFrom w (fun f hf => (hwidths f hf).1) hfill
  calc bitString w = bitsOf w.toNat (e.plen + (16 - e.plen)) := by rw [Nat.add_sub_cancel' h16, bitString]
    _ = prefixBits e ++ bitsOf w.toNat (16 - e.plen) := by
        rw [bitsOf_add, (matchesWord_iff_div w he).mp hm, prefixBits]
    _ = prefixBits e ++ fieldBits e.fields (rawFields e w) := by rw [← hfields, rawFields]

end Sys2Proof.Proofs
end

section
/-! What stands outside the block's decode: the registers the host reads (10_state.md R23 to R26), the representation of
an entry (R22), and the words the host forms and issues (20_memory.md R43, R45). -/

namespace Sys2Proof.Proofs

open Sys2Proof Sys2Proof.Machine Sys2Proof.Laws

/-! ### Registers -/

theorem status_code_le (x : Status) : x.code ≤ 2 := by
  cases x <;> decide

/-- The values of STATUS in the order of their codes (R23). -/
def statuses : List Status := [.unloaded, .loaded, .malformed]

/-- The value of STATUS is read back from its code. -/
theorem statuses_getElem?_code (x : Status) : statuses[x.code]? = some x := by
  cases x <;> rfl

theorem status_code_inj {x y : Status} : x.code = y.code ↔ x = y :=
  ⟨fun h => Option.some.inj ((statuses_getElem?_code x).symm.trans (h ▸ statuses_getElem?_code y)),
    congrArg Status.code⟩

theorem errCode_code_lt (c : ErrCode) : c.code < 9 := by
  cases c <;> decide

/-- The causes in the order of their codes (R181). -/
def errCodes : List ErrCode :=
  [.noError, .widthSum, .prefixLength, .fieldWidth, .dupMnemonic, .tableTooLarge, .fieldName, .emptyMnemonic,
    .prefixChar]

/-- The cause is read back from its code. -/
theorem errCodes_getElem?_code (c : ErrCode) : errCodes[c.code]? = some c := by
  cases c <;> rfl

theorem errCode_code_inj {c c' : ErrCode} (h : c.code = c'.code) : c = c' :=
  Option.some.inj ((errCodes_getElem?_code c).symm.trans (h ▸ errCodes_getElem?_code c'))

/-- Settles O47: the codes of a STATUS and of a cause are read back, and DUP_FIELD is one bit. -/
theorem registersReadAsTheirCodes : Obligations.RegistersReadAsTheirCodes := by
  refine ⟨fun s => ⟨status_code_le _, Nat.le_of_lt_succ (errCode_code_lt _), Bool.toNat_le _, rfl, ?_⟩,
    fun _ _ => errCode_code_inj, by decide⟩
  exact ⟨status_code_inj (y := .unloaded), status_code_inj (y := .loaded), status_code_inj (y := .malformed),
    Bool.toNat_eq_one⟩

/-! ### The representation of an entry -/

/-- A name is read back from its code, unless the code is that of the empty name. -/
theorem nameOfCode_nameCode (name : Option Char) :
    nameOfCode (nameCode name) = if name = some (Char.ofNat 0) then none else name := by
  cases name with
  | none => rfl
  | some c =>
    have hzero : c.toNat = 0 ↔ c = Char.ofNat 0 := by
      refine ⟨fun h => ?_, fun h => h ▸ rfl⟩
      rw [← h, Char.ofNat_toNat]
    simp [nameOfCode, nameCode, hzero, Char.ofNat_toNat]

/-- A well-formed entry has at most fifteen fields, as each takes at least one bit beside the prefix (R21). -/
theorem length_fields_le {e : Entry} (he : e.wf = true) : e.fields.length ≤ 15 := by
  obtain ⟨h1, -, -, hwidths, hfill⟩ := wf_iff.mp he
  have hsum := List.card_nsmul_le_sum (e.fields.map (·.width)) 1 (List.forall_mem_map.mpr fun f hf => (hwidths f hf).1)
  rw [List.length_map, smul_eq_mul, ← Entry.widthSum] at hsum
  omega

/-- A field comes back from its slot, unnamed where its name has code 0 (R22). -/
theorem field_of_slot {f : Field} (h15 : f.width ≤ 15) :
    (⟨nameOfCode (nameCode f.name), (BitVec.ofNat 4 f.width).toNat⟩ : Field) =
      if f.name = some (Char.ofNat 0) then { f with name := none } else f := by
  have hwidth : (BitVec.ofNat 4 f.width).toNat = f.width := by
    rw [BitVec.toNat_ofNat]
    omega
  rw [nameOfCode_nameCode, hwidth]
  split <;> rfl

/-- Settles O48: every part fits its bits, and only the name of code 0 is not read back from its code. -/
theorem packedEntryKeepsTheEntry : Obligations.PackedEntryKeepsTheEntry := by
  intro e he
  obtain ⟨-, h16, hval, hwidths, -⟩ := wf_iff.mp he
  have hlen := length_fields_le he
  have hplen : (BitVec.ofNat 5 e.plen).toNat = e.plen := by
    rw [BitVec.toNat_ofNat]
    omega
  have hpval : (BitVec.ofNat 16 e.pval).toNat = e.pval := by
    rw [BitVec.toNat_ofNat]
    exact Nat.mod_eq_of_lt (hval.trans_le (Nat.pow_le_pow_right (by decide) h16))
  have hnf : (BitVec.ofNat 4 e.fields.length).toNat = e.fields.length := by
    rw [BitVec.toNat_ofNat]
    omega
  simp only [unpackEntry, packEntry, hplen, hpval, hnf, ← List.map_take, List.take_length, List.map_map]
  exact congrArg (Entry.mk e.mnemonic e.plen e.pval) (List.map_congr_left fun f hf => field_of_slot (hwidths f hf).2)

/-! ### The host's words -/

/-- Settles O49: two bytes fit a word, and the boundary tests the host's value. -/
theorem hostFormsAndIssuesWords : Obligations.HostFormsAndIssuesWords := by
  refine ⟨fun first second => ?_, fun s seq v => ⟨fun h => if_neg (Nat.not_lt.mpr h), fun h => if_pos h⟩⟩
  have := first.isLt
  have := second.isLt
  simp only [hostWord, BitVec.toNat_ofNat]
  omega

end Sys2Proof.Proofs
end

section
/-! The opcode map of REF31 (30_encoding.md R67): what each of its ranges decodes to, and how many words decode to an
entry, counted range by range. -/

namespace Sys2Proof.Proofs

open Sys2Proof Sys2Proof.Machine Sys2Proof.Laws

/-! ### The words of an entry and of a row -/

/-- The words an entry matches are a range: its `match` value and what its fields add to it (R63). -/
theorem matchesWord_ofNat_iff {e : Entry} {v : Nat} (he : e.wf = true) (hv : v < 65536) :
    matchesWord e (BitVec.ofNat 16 v) = true ↔ matchOf e ≤ v ∧ v < matchOf e + 2 ^ (16 - e.plen) := by
  rw [matchesWord_iff_div _ he, BitVec.toNat_ofNat, Nat.mod_eq_of_lt hv, Nat.div_eq_iff (Nat.two_pow_pos _), matchOf]
  have := Nat.two_pow_pos (16 - e.plen)
  omega

/-- A row of the map lists exactly the words of the entry, with its mnemonic and its distinct field names. -/
def IsRowOf (r : MapRow) (e : Entry) : Prop :=
  r.lo = matchOf e ∧ r.hi + 1 = matchOf e + 2 ^ (16 - e.plen)
    ∧ r.decode = some (e.mnemonic, (e.fields.map (·.name)).eraseDups)

/-- A row of the map has no word of the entry. -/
def IsRowOutside (r : MapRow) (e : Entry) : Prop := r.hi < matchOf e ∨ matchOf e + 2 ^ (16 - e.plen) ≤ r.lo

/-- The kind of the outcome a row states (R182). -/
def rowKind (r : MapRow) : Nat := if r.decode = none then 1 else 0

theorem row_hi_lt {r : MapRow} (hr : r ∈ ref31Map) : r.hi < 65536 := by
  revert r
  decide

theorem exists_entry_of_mapRow {r : MapRow} (hr : r ∈ ref31Map) (hd : r.decode ≠ none) :
    ∃ e ∈ ref31Table, IsRowOf r e := by
  revert r
  unfold IsRowOf
  decide

theorem isRowOutside_of_unknown {r : MapRow} (hr : r ∈ ref31Map) (hd : r.decode = none) :
    ∀ e ∈ ref31Table, IsRowOutside r e := by
  revert r
  unfold IsRowOutside
  decide

theorem wf_of_mem_ref31Table {e : Entry} (he : e ∈ ref31Table) : e.wf = true :=
  List.all_eq_true.mp ref31Table_wf e he

section
variable {r : MapRow} {v : Nat} (hr : r ∈ ref31Map) (hlo : r.lo ≤ v) (hhi : v ≤ r.hi)
include hr hlo hhi

theorem decodeOutcome_of_unknown_row (hd : r.decode = none) :
    decodeOutcome ref31Table (BitVec.ofNat 16 v) = .unknownOpcode := by
  refine (noMatchIsUnknownOpcode _ _).mpr fun e he => ?_
  have hout := isRowOutside_of_unknown hr hd e he
  have hmax := row_hi_lt hr
  rw [← Bool.not_eq_true, matchesWord_ofNat_iff (wf_of_mem_ref31Table he) (by omega)]
  unfold IsRowOutside at hout
  omega

theorem decodeOutcome_of_entry_row {mnemonic : String} {names : List (Option Char)}
    (hd : r.decode = some (mnemonic, names)) :
    ∃ index raw map, decodeOutcome ref31Table (BitVec.ofNat 16 v) = .decoded index mnemonic raw map
      ∧ map.map (·.1) = names := by
  obtain ⟨e, he, helo, hehi, hed⟩ := exists_entry_of_mapRow hr (by simp [hd])
  obtain ⟨rfl, rfl⟩ : e.mnemonic = mnemonic ∧ (e.fields.map (·.name)).eraseDups = names := by
    simpa using hed.symm.trans hd
  obtain ⟨i, hi⟩ := List.mem_iff_getElem?.mp he
  have hmax := row_hi_lt hr
  have hm : matchesWord e (BitVec.ofNat 16 v) = true :=
    (matchesWord_ofNat_iff (wf_of_mem_ref31Table he) (by omega)).mpr (by omega)
  exact ⟨_, _, _, decodeOutcome_ref31Table_of_matchesWord hi hm, (laterFieldOfOneNameWins e _).2⟩

/-- The kind of a word's outcome is that of its row. -/
theorem kind_of_row : (decodeOutcome ref31Table (BitVec.ofNat 16 v)).kind = rowKind r := by
  cases hd : r.decode with
  | none => simp [decodeOutcome_of_unknown_row hr hlo hhi hd, DecodeOutcome.kind, rowKind, hd]
  | some p =>
    obtain ⟨_, _, _, hout, -⟩ := decodeOutcome_of_entry_row hr hlo hhi hd
    simp [hout, DecodeOutcome.kind, rowKind, hd]

end

/-! ### Counting words by rows -/

/-- The second row begins where the first, which is not empty, ends. -/
def Follows (r r' : MapRow) : Prop := r.lo ≤ r.hi ∧ r'.lo = r.hi + 1

def rowSize (r : MapRow) : Nat := r.hi + 1 - r.lo

def rowWords (r : MapRow) : List Nat := List.range' r.lo (rowSize r)

theorem ref31Map_isChain : ref31Map.IsChain Follows := by
  unfold Follows
  decide

/-- Rows that follow one another list the words from the first on without a gap. -/
theorem flatMap_rowWords {r : MapRow} {rs : List MapRow} (h : (r :: rs).IsChain Follows) :
    (r :: rs).flatMap rowWords = List.range' r.lo ((r :: rs).map rowSize).sum := by
  induction rs generalizing r with
  | nil => simp [rowWords]
  | cons r' rs ih =>
    obtain ⟨⟨hle, hnext⟩, hrest⟩ := List.isChain_cons_cons.mp h
    have hstart : r'.lo = r.lo + rowSize r := by rw [hnext, rowSize, Nat.add_sub_cancel' (by omega)]
    rw [List.flatMap_cons, ih hrest, hstart, rowWords, List.range'_append_1]
    rfl

theorem flatMap_rowWords_ref31Map : ref31Map.flatMap rowWords = List.range 65536 := by
  have hsize : (ref31Map.map rowSize).sum = 65536 := by decide
  rw [List.range_eq_range', ← hsize]
  exact flatMap_rowWords ref31Map_isChain

/-- Of a row's words all or none have an outcome of kind `k`. -/
theorem countP_kind_rowWords {r : MapRow} (hr : r ∈ ref31Map) (k : Nat) :
    (rowWords r).countP (fun v => (decodeOutcome ref31Table (BitVec.ofNat 16 v)).kind == k) =
      if rowKind r = k then rowSize r else 0 := by
  have hkind : ∀ v ∈ rowWords r, (decodeOutcome ref31Table (BitVec.ofNat 16 v)).kind = rowKind r := by
    intro v hv
    obtain ⟨hlo, hhi⟩ := List.mem_range'_1.mp hv
    exact kind_of_row hr hlo (by unfold rowSize at hhi; omega)
  split
  · have hall : (rowWords r).length = rowSize r := List.length_range'
    rw [← hall, List.countP_eq_length]
    intro v hv
    rw [beq_iff_eq, hkind v hv]
    assumption
  · rw [List.countP_eq_zero]
    intro v hv
    rw [beq_iff_eq, hkind v hv]
    assumption

/-- As many words have an outcome of kind `k` as the rows of that kind have words. -/
theorem countP_kind (k : Nat) :
    (List.range 65536).countP (fun v => (decodeOutcome ref31Table (BitVec.ofNat 16 v)).kind == k) =
      (ref31Map.map (fun r => if rowKind r = k then rowSize r else 0)).sum := by
  rw [← flatMap_rowWords_ref31Map, List.countP_flatMap]
  exact congrArg List.sum (List.map_congr_left fun r hr => countP_kind_rowWords hr k)

/-- Settles O5: every row lists the words of one entry or avoids all entries, and the counts add up the rows. -/
theorem opcodeMapOfRef31 : Obligations.OpcodeMapOfRef31 := by
  refine ⟨rfl, rfl, rfl, fun k r r' hk hk' => ?_, fun r hr v hlo hhi => ?_, ?_, ?_⟩
  · obtain ⟨_, rfl⟩ := List.getElem?_eq_some_iff.mp hk
    obtain ⟨hlt, rfl⟩ := List.getElem?_eq_some_iff.mp hk'
    exact (List.isChain_iff_getElem.mp ref31Map_isChain k hlt).2
  · cases hd : r.decode with
    | none => exact decodeOutcome_of_unknown_row hr hlo hhi hd
    | some p => exact decodeOutcome_of_entry_row hr hlo hhi hd
  · rw [countP_kind]
    decide
  · rw [countP_kind]
    decide

end Sys2Proof.Proofs
end
